-- ==== Sys2Proof/Word.lean ====
section
/-! DEFINITION. The word types of the AVR core and their plainest arithmetic: bytes, 16-bit words,
general-register numbers and bit numbers (spec/10_state.md R20, R22, R26; spec/00_scope.md R8). -/

namespace Sys2Proof

/-- A general register, an I/O location or a byte of memory (spec/20_memory.md R60). -/
abbrev Byte := BitVec 8

/-- A data-space address, a program word address, a register pair or an instruction word. -/
abbrev Word := BitVec 16

/-- The number of a general register, 0 to 31 (spec/10_state.md R20). -/
abbrev Reg := Fin 32

/-- The number of a bit in a byte, 0 to 7 (spec/30_encoding.md R92, letters b and s). -/
abbrev BitNo := Fin 8

/-- Bits 7:0 of a word. -/
def lowByte (w : Word) : Byte := w.extractLsb' 0 8

/-- Bits 15:8 of a word. -/
def highByte (w : Word) : Byte := w.extractLsb' 8 8

/-- The 16-bit value `h : l` (spec/00_scope.md R8). -/
def joinBytes (h l : Byte) : Word := h ++ l

end Sys2Proof
end

