-- ==== Sys2Proof/Syntax.lean ====
section
/-! DEFINITION. The instructions: one constructor for each row of spec/opcode_table.json, in the table's
order, with the operands its rule names. The 45 alias rows are constructors too; the decoder never
produces one (spec/30_encoding.md R111, R114; log 15). -/

namespace Sys2Proof

/-- An instruction of the AVR table. Operands: `d`, `r` registers; `k` a constant or a code or data
address; `q` a displacement; `a` an I/O location; `b` a bit of a byte; `sb` a bit of SREG. Relative
offsets are the field bits, read as signed (spec/30_encoding.md R92, R108). -/
inductive Instr where
  -- T1 arithmetic and logic
  /-- `ADD Rd, Rr` (R125). -/
  | add (d : Reg) (r : Reg)
  /-- `ADC Rd, Rr` (R126). -/
  | adc (d : Reg) (r : Reg)
  /-- `ADIW Rdl, K` (R127). -/
  | adiw (d : Reg) (k : BitVec 6)
  /-- `SUB Rd, Rr` (R128). -/
  | sub (d : Reg) (r : Reg)
  /-- `SUBI Rd, K` (R129). -/
  | subi (d : Reg) (k : Byte)
  /-- `SBC Rd, Rr` (R130). -/
  | sbc (d : Reg) (r : Reg)
  /-- `SBCI Rd, K` (R131). -/
  | sbci (d : Reg) (k : Byte)
  /-- `SBIW Rdl, K` (R132). -/
  | sbiw (d : Reg) (k : BitVec 6)
  /-- `AND Rd, Rr` (R133). -/
  | and (d : Reg) (r : Reg)
  /-- `ANDI Rd, K` (R134). -/
  | andi (d : Reg) (k : Byte)
  /-- `OR Rd, Rr` (R135). -/
  | or (d : Reg) (r : Reg)
  /-- `ORI Rd, K` (R136). -/
  | ori (d : Reg) (k : Byte)
  /-- `EOR Rd, Rr` (R137). -/
  | eor (d : Reg) (r : Reg)
  /-- `COM Rd` (R138). -/
  | com (d : Reg)
  /-- `NEG Rd` (R139). -/
  | neg (d : Reg)
  /-- `SBR Rd, K` (R140). An alias. -/
  | sbr (d : Reg) (k : Byte)
  /-- `CBR Rd, K` (R141). An alias. -/
  | cbr (d : Reg) (k : Byte)
  /-- `INC Rd` (R142). -/
  | inc (d : Reg)
  /-- `DEC Rd` (R143). -/
  | dec (d : Reg)
  /-- `TST Rd` (R144). An alias. -/
  | tst (d : Reg)
  /-- `CLR Rd` (R145). An alias. -/
  | clr (d : Reg)
  /-- `SER Rd` (R146). An alias. -/
  | ser (d : Reg)
  /-- `MUL Rd, Rr` (R147). -/
  | mul (d : Reg) (r : Reg)
  /-- `MULS Rd, Rr` (R148). -/
  | muls (d : Reg) (r : Reg)
  /-- `MULSU Rd, Rr` (R149). -/
  | mulsu (d : Reg) (r : Reg)
  /-- `FMUL Rd, Rr` (R150). -/
  | fmul (d : Reg) (r : Reg)
  /-- `FMULS Rd, Rr` (R151). -/
  | fmuls (d : Reg) (r : Reg)
  /-- `FMULSU Rd, Rr` (R152). -/
  | fmulsu (d : Reg) (r : Reg)
  -- T2 branch
  /-- `RJMP k` (R163). -/
  | rjmp (k : BitVec 12)
  /-- `IJMP` (R164). -/
  | ijmp
  /-- `JMP k` (R165). -/
  | jmp (k : BitVec 22)
  /-- `RCALL k` (R166). -/
  | rcall (k : BitVec 12)
  /-- `ICALL` (R167). -/
  | icall
  /-- `CALL k` (R168). -/
  | call (k : BitVec 22)
  /-- `RET` (R169). -/
  | ret
  /-- `RETI` (R170). -/
  | reti
  /-- `CPSE Rd, Rr` (R171). -/
  | cpse (d : Reg) (r : Reg)
  /-- `CP Rd, Rr` (R172). -/
  | cp (d : Reg) (r : Reg)
  /-- `CPC Rd, Rr` (R173). -/
  | cpc (d : Reg) (r : Reg)
  /-- `CPI Rd, K` (R174). -/
  | cpi (d : Reg) (k : Byte)
  /-- `SBRC Rr, b` (R175). -/
  | sbrc (r : Reg) (b : BitNo)
  /-- `SBRS Rr, b` (R176). -/
  | sbrs (r : Reg) (b : BitNo)
  /-- `SBIC P, b` (R177). -/
  | sbic (a : BitVec 5) (b : BitNo)
  /-- `SBIS P, b` (R178). -/
  | sbis (a : BitVec 5) (b : BitNo)
  /-- `BRBS s, k` (R179). -/
  | brbs (sb : BitNo) (k : BitVec 7)
  /-- `BRBC s, k` (R180). -/
  | brbc (sb : BitNo) (k : BitVec 7)
  /-- `BREQ k` (R181). An alias. -/
  | breq (k : BitVec 7)
  /-- `BRNE k` (R182). An alias. -/
  | brne (k : BitVec 7)
  /-- `BRCS k` (R183). An alias. -/
  | brcs (k : BitVec 7)
  /-- `BRCC k` (R184). An alias. -/
  | brcc (k : BitVec 7)
  /-- `BRSH k` (R185). An alias. -/
  | brsh (k : BitVec 7)
  /-- `BRLO k` (R186). An alias. -/
  | brlo (k : BitVec 7)
  /-- `BRMI k` (R187). An alias. -/
  | brmi (k : BitVec 7)
  /-- `BRPL k` (R188). An alias. -/
  | brpl (k : BitVec 7)
  /-- `BRGE k` (R189). An alias. -/
  | brge (k : BitVec 7)
  /-- `BRLT k` (R190). An alias. -/
  | brlt (k : BitVec 7)
  /-- `BRHS k` (R191). An alias. -/
  | brhs (k : BitVec 7)
  /-- `BRHC k` (R192). An alias. -/
  | brhc (k : BitVec 7)
  /-- `BRTS k` (R193). An alias. -/
  | brts (k : BitVec 7)
  /-- `BRTC k` (R194). An alias. -/
  | brtc (k : BitVec 7)
  /-- `BRVS k` (R195). An alias. -/
  | brvs (k : BitVec 7)
  /-- `BRVC k` (R196). An alias. -/
  | brvc (k : BitVec 7)
  /-- `BRIE k` (R197). An alias. -/
  | brie (k : BitVec 7)
  /-- `BRID k` (R198). An alias. -/
  | brid (k : BitVec 7)
  -- T3 control
  /-- `NOP` (R210). -/
  | nop
  /-- `SLEEP` (R211). -/
  | sleep
  -- T4 data transfer
  /-- `MOV Rd, Rr` (R218). -/
  | mov (d : Reg) (r : Reg)
  /-- `MOVW Rd, Rr` (R219). -/
  | movw (d : Reg) (r : Reg)
  /-- `LDI Rd, K` (R220). -/
  | ldi (d : Reg) (k : Byte)
  /-- `LD Rd, X` (R221). -/
  | ldX (d : Reg)
  /-- `LD Rd, X+` (R222). -/
  | ldXInc (d : Reg)
  /-- `LD Rd, -X` (R223). -/
  | ldXDec (d : Reg)
  /-- `LD Rd, Y` (R224). An alias. -/
  | ldY (d : Reg)
  /-- `LD Rd, Y+` (R225). -/
  | ldYInc (d : Reg)
  /-- `LD Rd, -Y` (R226). -/
  | ldYDec (d : Reg)
  /-- `LDD Rd, Y+q` (R227). -/
  | lddY (d : Reg) (q : BitVec 6)
  /-- `LD Rd, Z` (R228). An alias. -/
  | ldZ (d : Reg)
  /-- `LD Rd, Z+` (R229). -/
  | ldZInc (d : Reg)
  /-- `LD Rd, -Z` (R230). -/
  | ldZDec (d : Reg)
  /-- `LDD Rd, Z+q` (R231). -/
  | lddZ (d : Reg) (q : BitVec 6)
  /-- `LDS Rd, k` (R232). -/
  | lds (d : Reg) (k : Word)
  /-- `ST X, Rr` (R233). -/
  | stX (r : Reg)
  /-- `ST X+, Rr` (R234). -/
  | stXInc (r : Reg)
  /-- `ST -X, Rr` (R235). -/
  | stXDec (r : Reg)
  /-- `ST Y, Rr` (R236). An alias. -/
  | stY (r : Reg)
  /-- `ST Y+, Rr` (R237). -/
  | stYInc (r : Reg)
  /-- `ST -Y, Rr` (R238). -/
  | stYDec (r : Reg)
  /-- `STD Y+q, Rr` (R239). -/
  | stdY (q : BitVec 6) (r : Reg)
  /-- `ST Z, Rr` (R240). An alias. -/
  | stZ (r : Reg)
  /-- `ST Z+, Rr` (R241). -/
  | stZInc (r : Reg)
  /-- `ST -Z, Rr` (R242). -/
  | stZDec (r : Reg)
  /-- `STD Z+q, Rr` (R243). -/
  | stdZ (q : BitVec 6) (r : Reg)
  /-- `STS k, Rr` (R244). -/
  | sts (k : Word) (r : Reg)
  /-- `LPM` (R245). -/
  | lpmR0
  /-- `LPM Rd, Z` (R246). -/
  | lpm (d : Reg)
  /-- `LPM Rd, Z+` (R247). -/
  | lpmInc (d : Reg)
  /-- `ELPM` (R248). -/
  | elpmR0
  /-- `ELPM Rd, Z` (R249). -/
  | elpm (d : Reg)
  /-- `ELPM Rd, Z+` (R250). -/
  | elpmInc (d : Reg)
  /-- `SPM` (R251). -/
  | spm
  /-- `IN Rd, P` (R252). -/
  | inp (d : Reg) (a : BitVec 6)
  /-- `OUT P, Rr` (R253). -/
  | out (a : BitVec 6) (r : Reg)
  /-- `PUSH Rr` (R254). -/
  | push (r : Reg)
  /-- `POP Rd` (R255). -/
  | pop (d : Reg)
  -- T5 bit and bit-test
  /-- `SBI P, b` (R267). -/
  | sbi (a : BitVec 5) (b : BitNo)
  /-- `CBI P, b` (R268). -/
  | cbi (a : BitVec 5) (b : BitNo)
  /-- `LSL Rd` (R269). An alias. -/
  | lsl (d : Reg)
  /-- `LSR Rd` (R270). -/
  | lsr (d : Reg)
  /-- `ROL Rd` (R271). An alias. -/
  | rol (d : Reg)
  /-- `ROR Rd` (R272). -/
  | ror (d : Reg)
  /-- `ASR Rd` (R273). -/
  | asr (d : Reg)
  /-- `SWAP Rd` (R274). -/
  | swap (d : Reg)
  /-- `BSET s` (R275). -/
  | bset (sb : BitNo)
  /-- `BCLR s` (R276). -/
  | bclr (sb : BitNo)
  /-- `BST Rr, b` (R277). -/
  | bst (r : Reg) (b : BitNo)
  /-- `BLD Rd, b` (R278). -/
  | bld (d : Reg) (b : BitNo)
  /-- `SEC` (R279). An alias. -/
  | sec
  /-- `CLC` (R280). An alias. -/
  | clc
  /-- `SEN` (R281). An alias. -/
  | sen
  /-- `CLN` (R282). An alias. -/
  | cln
  /-- `SEZ` (R283). An alias. -/
  | sez
  /-- `CLZ` (R284). An alias. -/
  | clz
  /-- `SEI` (R285). An alias. -/
  | sei
  /-- `CLI` (R286). An alias. -/
  | cli
  /-- `SES` (R287). An alias. -/
  | ses
  /-- `CLS` (R288). An alias. -/
  | cls
  /-- `SEV` (R289). An alias. -/
  | sev
  /-- `CLV` (R290). An alias. -/
  | clv
  /-- `SET` (R291). An alias. -/
  | set
  /-- `CLT` (R292). An alias. -/
  | clt
  /-- `SEH` (R293). An alias. -/
  | seh
  /-- `CLH` (R294). An alias. -/
  | clh
  deriving DecidableEq, Repr

end Sys2Proof
end

