-- ==== Sys2Proof/Decode.lean ====
section
/-! DEFINITION. The decoder and the encoder of spec/30_encoding.md: the fields of an instruction word, the
87 primary rows of the opcode table as masks and patterns, decoding of any words or bytes with a named
rejection, and the encoder with the alias table of R114. -/

namespace Sys2Proof

/-! ### Fields of an instruction word (R92) -/

/-- The 5-bit register field at bits 8:4. -/
def fieldD5 (w : Word) : Reg := (w.extractLsb' 4 5).toFin

/-- The 5-bit register field with r[4] at bit 9 and r[3:0] at bits 3:0. -/
def fieldR5 (w : Word) : Reg := (w.extractLsb' 9 1 ++ w.extractLsb' 0 4).toFin

/-- R16 to R31 from bits 7:4. -/
def fieldD4 (w : Word) : Reg := (1#1 ++ w.extractLsb' 4 4).toFin

/-- R16 to R31 from bits 3:0. -/
def fieldR4 (w : Word) : Reg := (1#1 ++ w.extractLsb' 0 4).toFin

/-- R16 to R23 from bits 6:4. -/
def fieldD3 (w : Word) : Reg := (2#2 ++ w.extractLsb' 4 3).toFin

/-- R16 to R23 from bits 2:0. -/
def fieldR3 (w : Word) : Reg := (2#2 ++ w.extractLsb' 0 3).toFin

/-- R24, R26, R28, R30 from bits 5:4. -/
def fieldPair (w : Word) : Reg := (3#2 ++ w.extractLsb' 4 2 ++ 0#1).toFin

/-- An even register from bits 7:4. -/
def fieldEvenD (w : Word) : Reg := (w.extractLsb' 4 4 ++ 0#1).toFin

/-- An even register from bits 3:0. -/
def fieldEvenR (w : Word) : Reg := (w.extractLsb' 0 4 ++ 0#1).toFin

/-- The 8-bit constant, K[7:4] at bits 11:8 and K[3:0] at bits 3:0. -/
def fieldK8 (w : Word) : Byte := w.extractLsb' 8 4 ++ w.extractLsb' 0 4

/-- The 6-bit constant, K[5:4] at bits 7:6 and K[3:0] at bits 3:0. -/
def fieldK6 (w : Word) : BitVec 6 := w.extractLsb' 6 2 ++ w.extractLsb' 0 4

/-- The 12-bit relative offset at bits 11:0. -/
def fieldK12 (w : Word) : BitVec 12 := w.extractLsb' 0 12

/-- The 7-bit relative offset at bits 9:3. -/
def fieldK7 (w : Word) : BitVec 7 := w.extractLsb' 3 7

/-- The displacement, q[5] at bit 13, q[4:3] at bits 11:10, q[2:0] at bits 2:0. -/
def fieldQ (w : Word) : BitVec 6 := w.extractLsb' 13 1 ++ w.extractLsb' 10 2 ++ w.extractLsb' 0 3

/-- The bit number (or SREG bit of a conditional branch) at bits 2:0. -/
def fieldB (w : Word) : BitNo := (w.extractLsb' 0 3).toFin

/-- The SREG bit of BSET and BCLR at bits 6:4. -/
def fieldS (w : Word) : BitNo := (w.extractLsb' 4 3).toFin

/-- The I/O location of IN and OUT, A[5:4] at bits 10:9 and A[3:0] at bits 3:0. -/
def fieldA6 (w : Word) : BitVec 6 := w.extractLsb' 9 2 ++ w.extractLsb' 0 4

/-- The I/O location of SBI, CBI, SBIC and SBIS at bits 7:3. -/
def fieldA5 (w : Word) : BitVec 5 := w.extractLsb' 3 5

/-- The 22-bit absolute code address: k[21:17] at bits 8:4 and k[16] at bit 0 of the first word, k[15:0] the
second word (R100). -/
def fieldK22 (w k : Word) : BitVec 22 := w.extractLsb' 4 5 ++ w.extractLsb' 0 1 ++ k

/-! ### The opcode table -/

/-- A primary row: a first word `w` is this row when `w &&& mask = pat` (R91), and `build` recovers the
operands from the first word and the second (which only a two-word row looks at). -/
structure Row where
  mask : Word
  pat : Word
  build : Word → Word → Instr

/-- The row selects this first word. -/
def Row.selects (r : Row) (w : Word) : Bool := w &&& r.mask == r.pat

/-- The primary rows of group T1 arithmetic and logic of spec/opcode_table.json. -/
def rowsArith : List Row := [
  ⟨0xFC00, 0x0C00, fun w _ => .add (fieldD5 w) (fieldR5 w)⟩,
  ⟨0xFC00, 0x1C00, fun w _ => .adc (fieldD5 w) (fieldR5 w)⟩,
  ⟨0xFF00, 0x9600, fun w _ => .adiw (fieldPair w) (fieldK6 w)⟩,
  ⟨0xFC00, 0x1800, fun w _ => .sub (fieldD5 w) (fieldR5 w)⟩,
  ⟨0xF000, 0x5000, fun w _ => .subi (fieldD4 w) (fieldK8 w)⟩,
  ⟨0xFC00, 0x0800, fun w _ => .sbc (fieldD5 w) (fieldR5 w)⟩,
  ⟨0xF000, 0x4000, fun w _ => .sbci (fieldD4 w) (fieldK8 w)⟩,
  ⟨0xFF00, 0x9700, fun w _ => .sbiw (fieldPair w) (fieldK6 w)⟩,
  ⟨0xFC00, 0x2000, fun w _ => .and (fieldD5 w) (fieldR5 w)⟩,
  ⟨0xF000, 0x7000, fun w _ => .andi (fieldD4 w) (fieldK8 w)⟩,
  ⟨0xFC00, 0x2800, fun w _ => .or (fieldD5 w) (fieldR5 w)⟩,
  ⟨0xF000, 0x6000, fun w _ => .ori (fieldD4 w) (fieldK8 w)⟩,
  ⟨0xFC00, 0x2400, fun w _ => .eor (fieldD5 w) (fieldR5 w)⟩,
  ⟨0xFE0F, 0x9400, fun w _ => .com (fieldD5 w)⟩,
  ⟨0xFE0F, 0x9401, fun w _ => .neg (fieldD5 w)⟩,
  ⟨0xFE0F, 0x9403, fun w _ => .inc (fieldD5 w)⟩,
  ⟨0xFE0F, 0x940A, fun w _ => .dec (fieldD5 w)⟩,
  ⟨0xFC00, 0x9C00, fun w _ => .mul (fieldD5 w) (fieldR5 w)⟩,
  ⟨0xFF00, 0x0200, fun w _ => .muls (fieldD4 w) (fieldR4 w)⟩,
  ⟨0xFF88, 0x0300, fun w _ => .mulsu (fieldD3 w) (fieldR3 w)⟩,
  ⟨0xFF88, 0x0308, fun w _ => .fmul (fieldD3 w) (fieldR3 w)⟩,
  ⟨0xFF88, 0x0380, fun w _ => .fmuls (fieldD3 w) (fieldR3 w)⟩,
  ⟨0xFF88, 0x0388, fun w _ => .fmulsu (fieldD3 w) (fieldR3 w)⟩]

/-- The primary rows of group T2 branch of spec/opcode_table.json. -/
def rowsBranch : List Row := [
  ⟨0xF000, 0xC000, fun w _ => .rjmp (fieldK12 w)⟩,
  ⟨0xFFFF, 0x9409, fun _ _ => .ijmp⟩,
  ⟨0xFE0E, 0x940C, fun w k => .jmp (fieldK22 w k)⟩,
  ⟨0xF000, 0xD000, fun w _ => .rcall (fieldK12 w)⟩,
  ⟨0xFFFF, 0x9509, fun _ _ => .icall⟩,
  ⟨0xFE0E, 0x940E, fun w k => .call (fieldK22 w k)⟩,
  ⟨0xFFFF, 0x9508, fun _ _ => .ret⟩,
  ⟨0xFFFF, 0x9518, fun _ _ => .reti⟩,
  ⟨0xFC00, 0x1000, fun w _ => .cpse (fieldD5 w) (fieldR5 w)⟩,
  ⟨0xFC00, 0x1400, fun w _ => .cp (fieldD5 w) (fieldR5 w)⟩,
  ⟨0xFC00, 0x0400, fun w _ => .cpc (fieldD5 w) (fieldR5 w)⟩,
  ⟨0xF000, 0x3000, fun w _ => .cpi (fieldD4 w) (fieldK8 w)⟩,
  ⟨0xFE08, 0xFC00, fun w _ => .sbrc (fieldD5 w) (fieldB w)⟩,
  ⟨0xFE08, 0xFE00, fun w _ => .sbrs (fieldD5 w) (fieldB w)⟩,
  ⟨0xFF00, 0x9900, fun w _ => .sbic (fieldA5 w) (fieldB w)⟩,
  ⟨0xFF00, 0x9B00, fun w _ => .sbis (fieldA5 w) (fieldB w)⟩,
  ⟨0xFC00, 0xF000, fun w _ => .brbs (fieldB w) (fieldK7 w)⟩,
  ⟨0xFC00, 0xF400, fun w _ => .brbc (fieldB w) (fieldK7 w)⟩]

/-- The primary rows of group T3 control of spec/opcode_table.json. -/
def rowsControl : List Row := [
  ⟨0xFFFF, 0x0000, fun _ _ => .nop⟩,
  ⟨0xFFFF, 0x9588, fun _ _ => .sleep⟩]

/-- The primary rows of group T4 data transfer of spec/opcode_table.json. -/
def rowsTransfer : List Row := [
  ⟨0xFC00, 0x2C00, fun w _ => .mov (fieldD5 w) (fieldR5 w)⟩,
  ⟨0xFF00, 0x0100, fun w _ => .movw (fieldEvenD w) (fieldEvenR w)⟩,
  ⟨0xF000, 0xE000, fun w _ => .ldi (fieldD4 w) (fieldK8 w)⟩,
  ⟨0xFE0F, 0x900C, fun w _ => .ldX (fieldD5 w)⟩,
  ⟨0xFE0F, 0x900D, fun w _ => .ldXInc (fieldD5 w)⟩,
  ⟨0xFE0F, 0x900E, fun w _ => .ldXDec (fieldD5 w)⟩,
  ⟨0xFE0F, 0x9009, fun w _ => .ldYInc (fieldD5 w)⟩,
  ⟨0xFE0F, 0x900A, fun w _ => .ldYDec (fieldD5 w)⟩,
  ⟨0xD208, 0x8008, fun w _ => .lddY (fieldD5 w) (fieldQ w)⟩,
  ⟨0xFE0F, 0x9001, fun w _ => .ldZInc (fieldD5 w)⟩,
  ⟨0xFE0F, 0x9002, fun w _ => .ldZDec (fieldD5 w)⟩,
  ⟨0xD208, 0x8000, fun w _ => .lddZ (fieldD5 w) (fieldQ w)⟩,
  ⟨0xFE0F, 0x9000, fun w k => .lds (fieldD5 w) k⟩,
  ⟨0xFE0F, 0x920C, fun w _ => .stX (fieldD5 w)⟩,
  ⟨0xFE0F, 0x920D, fun w _ => .stXInc (fieldD5 w)⟩,
  ⟨0xFE0F, 0x920E, fun w _ => .stXDec (fieldD5 w)⟩,
  ⟨0xFE0F, 0x9209, fun w _ => .stYInc (fieldD5 w)⟩,
  ⟨0xFE0F, 0x920A, fun w _ => .stYDec (fieldD5 w)⟩,
  ⟨0xD208, 0x8208, fun w _ => .stdY (fieldQ w) (fieldD5 w)⟩,
  ⟨0xFE0F, 0x9201, fun w _ => .stZInc (fieldD5 w)⟩,
  ⟨0xFE0F, 0x9202, fun w _ => .stZDec (fieldD5 w)⟩,
  ⟨0xD208, 0x8200, fun w _ => .stdZ (fieldQ w) (fieldD5 w)⟩,
  ⟨0xFE0F, 0x9200, fun w k => .sts k (fieldD5 w)⟩,
  ⟨0xFFFF, 0x95C8, fun _ _ => .lpmR0⟩,
  ⟨0xFE0F, 0x9004, fun w _ => .lpm (fieldD5 w)⟩,
  ⟨0xFE0F, 0x9005, fun w _ => .lpmInc (fieldD5 w)⟩,
  ⟨0xFFFF, 0x95D8, fun _ _ => .elpmR0⟩,
  ⟨0xFE0F, 0x9006, fun w _ => .elpm (fieldD5 w)⟩,
  ⟨0xFE0F, 0x9007, fun w _ => .elpmInc (fieldD5 w)⟩,
  ⟨0xFFFF, 0x95E8, fun _ _ => .spm⟩,
  ⟨0xF800, 0xB000, fun w _ => .inp (fieldD5 w) (fieldA6 w)⟩,
  ⟨0xF800, 0xB800, fun w _ => .out (fieldA6 w) (fieldD5 w)⟩,
  ⟨0xFE0F, 0x920F, fun w _ => .push (fieldD5 w)⟩,
  ⟨0xFE0F, 0x900F, fun w _ => .pop (fieldD5 w)⟩]

/-- The primary rows of group T5 bit and bit-test of spec/opcode_table.json. -/
def rowsBits : List Row := [
  ⟨0xFF00, 0x9A00, fun w _ => .sbi (fieldA5 w) (fieldB w)⟩,
  ⟨0xFF00, 0x9800, fun w _ => .cbi (fieldA5 w) (fieldB w)⟩,
  ⟨0xFE0F, 0x9406, fun w _ => .lsr (fieldD5 w)⟩,
  ⟨0xFE0F, 0x9407, fun w _ => .ror (fieldD5 w)⟩,
  ⟨0xFE0F, 0x9405, fun w _ => .asr (fieldD5 w)⟩,
  ⟨0xFE0F, 0x9402, fun w _ => .swap (fieldD5 w)⟩,
  ⟨0xFF8F, 0x9408, fun w _ => .bset (fieldS w)⟩,
  ⟨0xFF8F, 0x9488, fun w _ => .bclr (fieldS w)⟩,
  ⟨0xFE08, 0xFA00, fun w _ => .bst (fieldD5 w) (fieldB w)⟩,
  ⟨0xFE08, 0xF800, fun w _ => .bld (fieldD5 w) (fieldB w)⟩]

/-- The 87 primary rows. Their order does not matter: they are pairwise disjoint (R111). -/
def opcodeTable : List Row :=
  rowsArith ++ rowsBranch ++ rowsControl ++ rowsTransfer ++ rowsBits

/-- `len(w) = 2`: the first words of JMP, CALL, LDS and STS (R109). -/
def isTwoWord (w : Word) : Bool :=
  w &&& 0xFE0E == 0x940C || w &&& 0xFE0E == 0x940E ||
  w &&& 0xFE0F == 0x9000 || w &&& 0xFE0F == 0x9200

/-- Why words do not decode. -/
inductive DecodeError where
  /-- The first word selects no row (R112). -/
  | reserved (w : Word)
  /-- There is no first word. -/
  | noWord
  /-- The first word is a two-word instruction's and there is no second word. -/
  | noSecondWord (w : Word)
  deriving DecidableEq, Repr

/-- Decodes the instruction at the head of a list of words and answers it with the words that follow. -/
def decode (ws : List Word) : Except DecodeError (Instr × List Word) :=
  match ws with
  | [] => .error .noWord
  | w :: rest =>
    match opcodeTable.find? (fun r => r.selects w) with
    | none => .error (.reserved w)
    | some r =>
      if isTwoWord w then
        match rest with
        | [] => .error (.noSecondWord w)
        | k :: rest' => .ok (r.build w k, rest')
      else .ok (r.build w 0, rest)

/-- Program memory's words from its bytes: the low byte of a word lies at the lower address
(spec/20_memory.md R62). A last odd byte makes no word. -/
def wordsOfBytes : List Byte → List Word
  | l :: h :: rest => joinBytes h l :: wordsOfBytes rest
  | _ => []

/-- A word's bytes in program memory, lowest address first (spec/20_memory.md R62). -/
def bytesOfWord (w : Word) : List Byte := [lowByte w, highByte w]

/-- Decodes the instruction at the head of any bytes. -/
def decodeBytes (bs : List Byte) : Except DecodeError (Instr × List Word) := decode (wordsOfBytes bs)

/-- The bytes, as program memory holds them, of an instruction whose bits are `w`, numbered as
spec/opcode_table.json numbers them: the first word is bits 15:0, the second bits 31:16. Bits from
`nbits` up are 0, to the longest instruction (two words). -/
def tableBytes (nbits w : Nat) : List Byte :=
  let v := w % 2 ^ nbits
  bytesOfWord (BitVec.ofNat 16 v) ++ bytesOfWord (BitVec.ofNat 16 (v / 65536))

/-- The instruction the decoder reads from an instruction of `nbits` bits `w`, none where it refuses. -/
def decodeTableWord (nbits w : Nat) : Option Instr :=
  match decodeBytes (tableBytes nbits w) with
  | .ok (i, _) => some i
  | .error _ => none

/-! ### The encoder: one function per format, written as the pattern of its rule -/

/-- A register number as a 5-bit field. -/
def regBits (d : Reg) : BitVec 5 := BitVec.ofFin d

/-- A bit number as a 3-bit field. -/
def bitBits (b : BitNo) : BitVec 3 := BitVec.ofFin b

/-- `oooo oord dddd rrrr` (R93). -/
def encRdRr (op : BitVec 6) (d r : Reg) : Word :=
  op ++ (regBits r).extractLsb' 4 1 ++ regBits d ++ (regBits r).extractLsb' 0 4

/-- `oooo KKKK dddd KKKK`, the field d holding d - 16 (R94). -/
def encRdK (op : BitVec 4) (d : Reg) (k : Byte) : Word :=
  op ++ k.extractLsb' 4 4 ++ (regBits d).extractLsb' 0 4 ++ k.extractLsb' 0 4

/-- `1001 010d dddd oooo` (R95). -/
def encRd (d : Reg) (op : BitVec 4) : Word := 0b1001010#7 ++ regBits d ++ op

/-- `1001 00sd dddd oooo` (R95). -/
def encLdSt (s : BitVec 1) (d : Reg) (mode : BitVec 4) : Word := 0b100100#6 ++ s ++ regBits d ++ mode

/-- `1001 011o KKdd KKKK`, the field d holding (d - 24) / 2 (R96). -/
def encWK (o : BitVec 1) (d : Reg) (k : BitVec 6) : Word :=
  0b1001011#7 ++ o ++ k.extractLsb' 4 2 ++ (regBits d).extractLsb' 1 2 ++ k.extractLsb' 0 4

/-- `0000 0001 dddd rrrr`, the fields holding d / 2 and r / 2 (R97). -/
def encMovW (d r : Reg) : Word :=
  0b00000001#8 ++ (regBits d).extractLsb' 1 4 ++ (regBits r).extractLsb' 1 4

/-- `0000 0010 dddd rrrr`, the fields holding d - 16 and r - 16 (R97). -/
def encMul4 (d r : Reg) : Word :=
  0b00000010#8 ++ (regBits d).extractLsb' 0 4 ++ (regBits r).extractLsb' 0 4

/-- `0000 0011 uddd vrrr`, the fields holding d - 16 and r - 16 (R97). -/
def encMul3 (u v : BitVec 1) (d r : Reg) : Word :=
  0b00000011#8 ++ u ++ (regBits d).extractLsb' 0 3 ++ v ++ (regBits r).extractLsb' 0 3

/-- `110o kkkk kkkk kkkk` (R98). -/
def encRel12 (o : BitVec 1) (k : BitVec 12) : Word := 0b110#3 ++ o ++ k

/-- `1111 0okk kkkk ksss` (R99). -/
def encBr (o : BitVec 1) (k : BitVec 7) (sb : BitNo) : Word := 0b11110#5 ++ o ++ k ++ bitBits sb

/-- `1001 010k kkkk 11ok` then `kkkk kkkk kkkk kkkk` (R100). -/
def encAbs22 (o : BitVec 1) (k : BitVec 22) : List Word :=
  [0b1001010#7 ++ k.extractLsb' 17 5 ++ 0b11#2 ++ o ++ k.extractLsb' 16 1, k.extractLsb' 0 16]

/-- `1111 1ood dddd 0bbb` (R101). -/
def encRegBit (oo : BitVec 2) (d : Reg) (b : BitNo) : Word :=
  0b11111#5 ++ oo ++ regBits d ++ 0#1 ++ bitBits b

/-- `1001 10oo AAAA Abbb` (R102). -/
def encIOBit (oo : BitVec 2) (a : BitVec 5) (b : BitNo) : Word := 0b100110#6 ++ oo ++ a ++ bitBits b

/-- `1011 oAAd dddd AAAA` (R103). -/
def encIO (o : BitVec 1) (a : BitVec 6) (d : Reg) : Word :=
  0b1011#4 ++ o ++ a.extractLsb' 4 2 ++ regBits d ++ a.extractLsb' 0 4

/-- `10q0 qqsd dddd yqqq` (R104). -/
def encDisp (s : BitVec 1) (d : Reg) (y : BitVec 1) (q : BitVec 6) : Word :=
  0b10#2 ++ q.extractLsb' 5 1 ++ 0#1 ++ q.extractLsb' 3 2 ++ s ++ regBits d ++ y ++ q.extractLsb' 0 3

/-- `1001 00sd dddd 0000` then `kkkk kkkk kkkk kkkk` (R105). -/
def encLdSt16 (s : BitVec 1) (d : Reg) (k : Word) : List Word :=
  [0b100100#6 ++ s ++ regBits d ++ 0b0000#4, k]

/-- `1001 0100 osss 1000` (R106). -/
def encSreg (o : BitVec 1) (sb : BitNo) : Word := 0b10010100#8 ++ o ++ bitBits sb ++ 0b1000#4

/-- The words of an instruction, first word first. Meant for well-formed operands; an alias has the words
of its parent (R114). -/
def encode (i : Instr) : List Word :=
  match i with
  | .add d r => [encRdRr 0b000011 d r]
  | .adc d r => [encRdRr 0b000111 d r]
  | .adiw d k => [encWK 0 d k]
  | .sub d r => [encRdRr 0b000110 d r]
  | .subi d k => [encRdK 0b0101 d k]
  | .sbc d r => [encRdRr 0b000010 d r]
  | .sbci d k => [encRdK 0b0100 d k]
  | .sbiw d k => [encWK 1 d k]
  | .and d r => [encRdRr 0b001000 d r]
  | .andi d k => [encRdK 0b0111 d k]
  | .or d r => [encRdRr 0b001010 d r]
  | .ori d k => [encRdK 0b0110 d k]
  | .eor d r => [encRdRr 0b001001 d r]
  | .com d => [encRd d 0b0000]
  | .neg d => [encRd d 0b0001]
  | .sbr d k => [encRdK 0b0110 d k]
  | .cbr d k => [encRdK 0b0111 d (~~~k)]
  | .inc d => [encRd d 0b0011]
  | .dec d => [encRd d 0b1010]
  | .tst d => [encRdRr 0b001000 d d]
  | .clr d => [encRdRr 0b001001 d d]
  | .ser d => [encRdK 0b1110 d 0xFF#8]
  | .mul d r => [encRdRr 0b100111 d r]
  | .muls d r => [encMul4 d r]
  | .mulsu d r => [encMul3 0 0 d r]
  | .fmul d r => [encMul3 0 1 d r]
  | .fmuls d r => [encMul3 1 0 d r]
  | .fmulsu d r => [encMul3 1 1 d r]
  | .rjmp k => [encRel12 0 k]
  | .ijmp => [0x9409]
  | .jmp k => encAbs22 0 k
  | .rcall k => [encRel12 1 k]
  | .icall => [0x9509]
  | .call k => encAbs22 1 k
  | .ret => [0x9508]
  | .reti => [0x9518]
  | .cpse d r => [encRdRr 0b000100 d r]
  | .cp d r => [encRdRr 0b000101 d r]
  | .cpc d r => [encRdRr 0b000001 d r]
  | .cpi d k => [encRdK 0b0011 d k]
  | .sbrc r b => [encRegBit 0b10 r b]
  | .sbrs r b => [encRegBit 0b11 r b]
  | .sbic a b => [encIOBit 0b01 a b]
  | .sbis a b => [encIOBit 0b11 a b]
  | .brbs sb k => [encBr 0 k sb]
  | .brbc sb k => [encBr 1 k sb]
  | .breq k => [encBr 0 k 1]
  | .brne k => [encBr 1 k 1]
  | .brcs k => [encBr 0 k 0]
  | .brcc k => [encBr 1 k 0]
  | .brsh k => [encBr 1 k 0]
  | .brlo k => [encBr 0 k 0]
  | .brmi k => [encBr 0 k 2]
  | .brpl k => [encBr 1 k 2]
  | .brge k => [encBr 1 k 4]
  | .brlt k => [encBr 0 k 4]
  | .brhs k => [encBr 0 k 5]
  | .brhc k => [encBr 1 k 5]
  | .brts k => [encBr 0 k 6]
  | .brtc k => [encBr 1 k 6]
  | .brvs k => [encBr 0 k 3]
  | .brvc k => [encBr 1 k 3]
  | .brie k => [encBr 0 k 7]
  | .brid k => [encBr 1 k 7]
  | .nop => [0x0000]
  | .sleep => [0x9588]
  | .mov d r => [encRdRr 0b001011 d r]
  | .movw d r => [encMovW d r]
  | .ldi d k => [encRdK 0b1110 d k]
  | .ldX d => [encLdSt 0 d 0b1100]
  | .ldXInc d => [encLdSt 0 d 0b1101]
  | .ldXDec d => [encLdSt 0 d 0b1110]
  | .ldY d => [encDisp 0 d 1 0]
  | .ldYInc d => [encLdSt 0 d 0b1001]
  | .ldYDec d => [encLdSt 0 d 0b1010]
  | .lddY d q => [encDisp 0 d 1 q]
  | .ldZ d => [encDisp 0 d 0 0]
  | .ldZInc d => [encLdSt 0 d 0b0001]
  | .ldZDec d => [encLdSt 0 d 0b0010]
  | .lddZ d q => [encDisp 0 d 0 q]
  | .lds d k => encLdSt16 0 d k
  | .stX r => [encLdSt 1 r 0b1100]
  | .stXInc r => [encLdSt 1 r 0b1101]
  | .stXDec r => [encLdSt 1 r 0b1110]
  | .stY r => [encDisp 1 r 1 0]
  | .stYInc r => [encLdSt 1 r 0b1001]
  | .stYDec r => [encLdSt 1 r 0b1010]
  | .stdY q r => [encDisp 1 r 1 q]
  | .stZ r => [encDisp 1 r 0 0]
  | .stZInc r => [encLdSt 1 r 0b0001]
  | .stZDec r => [encLdSt 1 r 0b0010]
  | .stdZ q r => [encDisp 1 r 0 q]
  | .sts k r => encLdSt16 1 r k
  | .lpmR0 => [0x95C8]
  | .lpm d => [encLdSt 0 d 0b0100]
  | .lpmInc d => [encLdSt 0 d 0b0101]
  | .elpmR0 => [0x95D8]
  | .elpm d => [encLdSt 0 d 0b0110]
  | .elpmInc d => [encLdSt 0 d 0b0111]
  | .spm => [0x95E8]
  | .inp d a => [encIO 0 a d]
  | .out a r => [encIO 1 a r]
  | .push r => [encLdSt 1 r 0b1111]
  | .pop d => [encLdSt 0 d 0b1111]
  | .sbi a b => [encIOBit 0b10 a b]
  | .cbi a b => [encIOBit 0b00 a b]
  | .lsl d => [encRdRr 0b000011 d d]
  | .lsr d => [encRd d 0b0110]
  | .rol d => [encRdRr 0b000111 d d]
  | .ror d => [encRd d 0b0111]
  | .asr d => [encRd d 0b0101]
  | .swap d => [encRd d 0b0010]
  | .bset sb => [encSreg 0 sb]
  | .bclr sb => [encSreg 1 sb]
  | .bst r b => [encRegBit 0b01 r b]
  | .bld d b => [encRegBit 0b00 d b]
  | .sec => [encSreg 0 0]
  | .clc => [encSreg 1 0]
  | .sen => [encSreg 0 2]
  | .cln => [encSreg 1 2]
  | .sez => [encSreg 0 1]
  | .clz => [encSreg 1 1]
  | .sei => [encSreg 0 7]
  | .cli => [encSreg 1 7]
  | .ses => [encSreg 0 4]
  | .cls => [encSreg 1 4]
  | .sev => [encSreg 0 3]
  | .clv => [encSreg 1 3]
  | .set => [encSreg 0 6]
  | .clt => [encSreg 1 6]
  | .seh => [encSreg 0 5]
  | .clh => [encSreg 1 5]

/-- The instruction a decoder reads from an instruction's words: itself for the 87 primary rows, the
parent with the alias's fixed operands for the 45 aliases (R114). -/
def canonical (i : Instr) : Instr :=
  match i with
  | .add d r => .add d r
  | .adc d r => .adc d r
  | .adiw d k => .adiw d k
  | .sub d r => .sub d r
  | .subi d k => .subi d k
  | .sbc d r => .sbc d r
  | .sbci d k => .sbci d k
  | .sbiw d k => .sbiw d k
  | .and d r => .and d r
  | .andi d k => .andi d k
  | .or d r => .or d r
  | .ori d k => .ori d k
  | .eor d r => .eor d r
  | .com d => .com d
  | .neg d => .neg d
  | .sbr d k => .ori d k
  | .cbr d k => .andi d (~~~k)
  | .inc d => .inc d
  | .dec d => .dec d
  | .tst d => .and d d
  | .clr d => .eor d d
  | .ser d => .ldi d 0xFF#8
  | .mul d r => .mul d r
  | .muls d r => .muls d r
  | .mulsu d r => .mulsu d r
  | .fmul d r => .fmul d r
  | .fmuls d r => .fmuls d r
  | .fmulsu d r => .fmulsu d r
  | .rjmp k => .rjmp k
  | .ijmp => .ijmp
  | .jmp k => .jmp k
  | .rcall k => .rcall k
  | .icall => .icall
  | .call k => .call k
  | .ret => .ret
  | .reti => .reti
  | .cpse d r => .cpse d r
  | .cp d r => .cp d r
  | .cpc d r => .cpc d r
  | .cpi d k => .cpi d k
  | .sbrc r b => .sbrc r b
  | .sbrs r b => .sbrs r b
  | .sbic a b => .sbic a b
  | .sbis a b => .sbis a b
  | .brbs sb k => .brbs sb k
  | .brbc sb k => .brbc sb k
  | .breq k => .brbs 1 k
  | .brne k => .brbc 1 k
  | .brcs k => .brbs 0 k
  | .brcc k => .brbc 0 k
  | .brsh k => .brbc 0 k
  | .brlo k => .brbs 0 k
  | .brmi k => .brbs 2 k
  | .brpl k => .brbc 2 k
  | .brge k => .brbc 4 k
  | .brlt k => .brbs 4 k
  | .brhs k => .brbs 5 k
  | .brhc k => .brbc 5 k
  | .brts k => .brbs 6 k
  | .brtc k => .brbc 6 k
  | .brvs k => .brbs 3 k
  | .brvc k => .brbc 3 k
  | .brie k => .brbs 7 k
  | .brid k => .brbc 7 k
  | .nop => .nop
  | .sleep => .sleep
  | .mov d r => .mov d r
  | .movw d r => .movw d r
  | .ldi d k => .ldi d k
  | .ldX d => .ldX d
  | .ldXInc d => .ldXInc d
  | .ldXDec d => .ldXDec d
  | .ldY d => .lddY d 0
  | .ldYInc d => .ldYInc d
  | .ldYDec d => .ldYDec d
  | .lddY d q => .lddY d q
  | .ldZ d => .lddZ d 0
  | .ldZInc d => .ldZInc d
  | .ldZDec d => .ldZDec d
  | .lddZ d q => .lddZ d q
  | .lds d k => .lds d k
  | .stX r => .stX r
  | .stXInc r => .stXInc r
  | .stXDec r => .stXDec r
  | .stY r => .stdY 0 r
  | .stYInc r => .stYInc r
  | .stYDec r => .stYDec r
  | .stdY q r => .stdY q r
  | .stZ r => .stdZ 0 r
  | .stZInc r => .stZInc r
  | .stZDec r => .stZDec r
  | .stdZ q r => .stdZ q r
  | .sts k r => .sts k r
  | .lpmR0 => .lpmR0
  | .lpm d => .lpm d
  | .lpmInc d => .lpmInc d
  | .elpmR0 => .elpmR0
  | .elpm d => .elpm d
  | .elpmInc d => .elpmInc d
  | .spm => .spm
  | .inp d a => .inp d a
  | .out a r => .out a r
  | .push r => .push r
  | .pop d => .pop d
  | .sbi a b => .sbi a b
  | .cbi a b => .cbi a b
  | .lsl d => .add d d
  | .lsr d => .lsr d
  | .rol d => .adc d d
  | .ror d => .ror d
  | .asr d => .asr d
  | .swap d => .swap d
  | .bset sb => .bset sb
  | .bclr sb => .bclr sb
  | .bst r b => .bst r b
  | .bld d b => .bld d b
  | .sec => .bset 0
  | .clc => .bclr 0
  | .sen => .bset 2
  | .cln => .bclr 2
  | .sez => .bset 1
  | .clz => .bclr 1
  | .sei => .bset 7
  | .cli => .bclr 7
  | .ses => .bset 4
  | .cls => .bclr 4
  | .sev => .bset 3
  | .clv => .bclr 3
  | .set => .bset 6
  | .clt => .bclr 6
  | .seh => .bset 5
  | .clh => .bclr 5

end Sys2Proof
end

