-- ==== Sys2Proof/Machine/Flags.lean ====
section
/-! DEFINITION. The status register's bits and every flag computation of the spec: spec/10_state.md R30,
spec/40_arithmetic_logic.md R121 to R124, R127, R132, R138, R139, R142, R143,
spec/44_bit_and_bit_test.md R265. Each function answers the new SREG from the old one; a flag it does not
name is unchanged (spec/00_scope.md R13). -/

namespace Sys2Proof.Machine

/-! ### Bit numbers of the flags (spec/10_state.md R30) -/

def flagC : BitNo := 0
def flagZ : BitNo := 1
def flagN : BitNo := 2
def flagV : BitNo := 3
def flagS : BitNo := 4
def flagH : BitNo := 5
def flagT : BitNo := 6
def flagI : BitNo := 7

/-- Bit `n` of a byte. -/
def bitOf (v : Byte) (n : BitNo) : Bool := v.getLsbD n.val

/-- The byte `v` with bit `n` set to `b` and the other bits unchanged. -/
def putBit (v : Byte) (n : BitNo) (b : Bool) : Byte :=
  if b then v ||| (1#8 <<< n.val) else v &&& ~~~(1#8 <<< n.val)

/-- The six arithmetic flags in their places, T and I as 0. -/
def packFlags (h s v n z c : Bool) : Byte :=
  0#2 ++ BitVec.ofBool h ++ BitVec.ofBool s ++ BitVec.ofBool v ++ BitVec.ofBool n ++
    BitVec.ofBool z ++ BitVec.ofBool c

/-- `old` with the bits of `mask` taken from `new`. -/
def mergeFlags (mask new old : Byte) : Byte := (old &&& ~~~mask) ||| (new &&& mask)

/-- H, S, V, N, Z, C. -/
def maskHSVNZC : Byte := 0b00111111

/-- S, V, N, Z, C. -/
def maskSVNZC : Byte := 0b00011111

/-- S, V, N, Z. -/
def maskSVNZ : Byte := 0b00011110

/-- Z, C. -/
def maskZC : Byte := 0b00000011

/-- R121: the flags of `r = a + b + carry`, whichever the carry was. -/
def addFlags (a b r sreg : Byte) : Byte :=
  let h := (a[3] && b[3]) || (b[3] && !r[3]) || (!r[3] && a[3])
  let c := (a[7] && b[7]) || (b[7] && !r[7]) || (!r[7] && a[7])
  let v := (a[7] && b[7] && !r[7]) || (!a[7] && !b[7] && r[7])
  let n := r[7]
  mergeFlags maskHSVNZC (packFlags h (n != v) v n (r == 0) c) sreg

/-- R122: the flags of `r = a - b - borrow`, with the Z flag given (it is sticky in SBC, SBCI and CPC). -/
def subFlags (a b r : Byte) (z : Bool) (sreg : Byte) : Byte :=
  let h := (!a[3] && b[3]) || (b[3] && r[3]) || (r[3] && !a[3])
  let c := (!a[7] && b[7]) || (b[7] && r[7]) || (r[7] && !a[7])
  let v := (a[7] && !b[7] && !r[7]) || (!a[7] && b[7] && r[7])
  let n := r[7]
  mergeFlags maskHSVNZC (packFlags h (n != v) v n z c) sreg

/-- R123: the flags of a logic operation with result `r`. -/
def logicFlags (r sreg : Byte) : Byte :=
  mergeFlags maskSVNZ (packFlags false r[7] false r[7] (r == 0) false) sreg

/-- R138: COM, the logic flags and C set. -/
def comFlags (r sreg : Byte) : Byte :=
  mergeFlags maskSVNZC (packFlags false r[7] false r[7] (r == 0) true) sreg

/-- R139: NEG of `a` with result `r`. -/
def negFlags (a r sreg : Byte) : Byte :=
  let v := r == 0x80
  mergeFlags maskHSVNZC (packFlags (r[3] || a[3]) (r[7] != v) v r[7] (r == 0) (r != 0)) sreg

/-- R142: INC with result `r`. -/
def incFlags (r sreg : Byte) : Byte :=
  let v := r == 0x80
  mergeFlags maskSVNZ (packFlags false (r[7] != v) v r[7] (r == 0) false) sreg

/-- R143: DEC with result `r`. -/
def decFlags (r sreg : Byte) : Byte :=
  let v := r == 0x7F
  mergeFlags maskSVNZ (packFlags false (r[7] != v) v r[7] (r == 0) false) sreg

/-- R127: ADIW of the pair value `w` with result `r`. -/
def adiwFlags (w r : Word) (sreg : Byte) : Byte :=
  let v := !w[15] && r[15]
  let c := !r[15] && w[15]
  mergeFlags maskSVNZC (packFlags false (r[15] != v) v r[15] (r == 0) c) sreg

/-- R132: SBIW of the pair value `w` with result `r`. -/
def sbiwFlags (w r : Word) (sreg : Byte) : Byte :=
  let v := w[15] && !r[15]
  let c := r[15] && !w[15]
  mergeFlags maskSVNZC (packFlags false (r[15] != v) v r[15] (r == 0) c) sreg

/-- R124: a multiply with 16-bit product pattern `p` and value written `r`. -/
def mulFlags (p r : Word) (sreg : Byte) : Byte :=
  mergeFlags maskZC (packFlags false false false false (r == 0) p[15]) sreg

/-- R265 for LSR, ROR and ASR: result `r`, bit shifted out `c`; H is unchanged. -/
def shiftRightFlags (c : Bool) (r sreg : Byte) : Byte :=
  let v := r[7] != c
  mergeFlags maskSVNZC (packFlags false (r[7] != v) v r[7] (r == 0) c) sreg

/-- R265 for LSL and ROL of `a`: result `r`, bit shifted out `c`; H is the old bit 3. -/
def shiftLeftFlags (a : Byte) (c : Bool) (r sreg : Byte) : Byte :=
  let v := r[7] != c
  mergeFlags maskHSVNZC (packFlags a[3] (r[7] != v) v r[7] (r == 0) c) sreg

end Sys2Proof.Machine
end

