-- ==== Sys2Proof/Config.lean ====
section
/-! DEFINITION. What an implementation of the core fixes (the parameters of spec/00_scope.md R5), the
history its platform's oracles depend on (spec/20_memory.md R72, spec/60_exceptions.md R309), and the
values the spec leaves free, each an opaque constant that no proof can look into. -/

namespace Sys2Proof

/-- The parameters of spec/00_scope.md R5 that differ between devices. They are plain data held in the
state (field `par`), which no step changes, so that a statement about every state is a statement about
every choice of them (log 3). -/
structure Params where
  /-- `FLASH_WORDS`: program memory size in 16-bit words. -/
  flashWords : Nat
  /-- `RAMPZ_BITS`: implemented low bits of RAMPZ. -/
  rampzBits : Nat
  /-- `EXT_IO_END`: last data address of extended I/O. -/
  extIoEnd : Nat
  /-- `RAMSTART`: first address of internal SRAM. -/
  ramStart : Nat
  /-- `RAMEND`: last address of internal SRAM. -/
  ramEnd : Nat
  /-- The last address of external memory, which begins above `RAMEND`. A value not above `ramEnd` says
  that the platform has none (spec/20_memory.md R70, last row; log 4). -/
  extMemEnd : Nat
  /-- `SP_RESET`: the stack pointer after reset (log 2). -/
  spReset : Word
  /-- `RESET_VECTOR`: the program counter after reset. -/
  resetVector : Word
  /-- `NVECTORS`: the number of vectors, reset included as vector 0 (log 5). -/
  nVectors : Nat
  /-- `VECTOR_BASE`: word address of vector 0. -/
  vectorBase : Nat
  /-- `VECTOR_STRIDE`: words per vector. -/
  vectorStride : Nat
  deriving DecidableEq, Repr

/-- What the platform may have seen of the core: the history its oracles depend on
(spec/20_memory.md R72, spec/60_exceptions.md R309). -/
inductive Event where
  /-- A read of the device location at a data address, and the byte it answered. -/
  | devRead (addr : Word) (v : Byte)
  /-- `IODevWrite(addr, v)`. -/
  | devWrite (addr : Word) (v : Byte)
  /-- `IRQAck(n)`: entry into vector n. -/
  | irqAck (n : Nat)
  /-- A reset was carried out. -/
  | reset
  deriving DecidableEq, Repr

/-- The lines from the platform at one instruction boundary. -/
structure Pins where
  /-- Reset is asserted (spec/70_reset_and_hazards.md R330). -/
  reset : Bool
  /-- `IRQ(history)`: the vector numbers that are requesting and individually enabled
  (spec/60_exceptions.md R309). -/
  irq : List Nat
  /-- `SLEEP_ENABLED` (spec/60_exceptions.md R326). -/
  sleepEnabled : Bool
  deriving DecidableEq, Repr

/-- A byte that spec/93_implementation_defined.md U3 to U6 leaves open, the n-th of the run (log 12). -/
opaque Config.freeByte : Nat → Byte

/-- A bit that spec/93_implementation_defined.md U10 leaves open, the n-th of the run (log 24). -/
opaque Config.freeBit : Nat → Bool

/-- The unspecified contents of data memory after the n-th reset, by data address
(spec/10_state.md R48, spec/93_implementation_defined.md U1; log 6). -/
opaque Config.ramAtReset : Nat → Nat → Byte

/-- The unspecified contents of a general register after the n-th reset event
(spec/70_reset_and_hazards.md R331; log 13). -/
opaque Config.regAtReset : Nat → Reg → Byte

/-- `IODevRead(addr, history)`: the platform's answer to a read of a device location, under no law
(spec/20_memory.md R72; log 10). -/
opaque Config.ioDevRead : Word → List Event → Byte

end Sys2Proof
end

