-- ==== Sys2Proof/Machine/Params.lean ====
section
/-! DEFINITION. The values of the device parameters that State.reset takes: the defaults of spec/00_scope.md R5
(those of the 128 KB devices), and the model's choice where R5 leaves a parameter OPEN without a default. -/

namespace Sys2Proof.Machine

/-- The default device. `flashWords` to `ramEnd` and the vector addresses are R5's defaults (log 3).
External memory fills the data space above `RAMEND` (log 4, DESIGN CHOICE), `NVECTORS` is 35 (log 5, PRESUMED), and
`SP_RESET` is 0x0000, the older of the two values R5 names (log 2, DESIGN CHOICE). -/
def defaultParams : Params where
  flashWords := 65536
  rampzBits := 1
  extIoEnd := 0x00FF
  ramStart := 0x0100
  ramEnd := 0x10FF
  extMemEnd := 0xFFFF
  spReset := 0x0000
  resetVector := 0x0000
  nVectors := 35
  vectorBase := 0
  vectorStride := 2

/-- No reset, no request, sleep not enabled: the platform's lines at State.reset (log 11). -/
def quietPins : Pins where
  reset := false
  irq := []
  sleepEnabled := false

end Sys2Proof.Machine
end

