-- ==== Sys2Proof/Machine/State.lean ====
section
/-! DEFINITION. The state of the machine, as plain data: the architectural state of spec/10_state.md, the
platform's side of the interface (spec/70_reset_and_hazards.md R335), and the model's own counters; why a
step can stop; and the state right after reset (spec/10_state.md R48). -/

namespace Sys2Proof.Machine

/-- The machine. Memories are lists of (address, byte) in one canonical form (Machine/Ops.lean, `Memory.wf`). -/
structure State where
  /-- R0 to R31 (R20). -/
  regs : Vector Byte 32
  /-- The program counter, a word address (R26). -/
  pc : Word
  /-- The status register, I T H S V N Z C from bit 7 to bit 0 (R30). -/
  sreg : Byte
  /-- The stack pointer, seen as SPH and SPL (R35). -/
  sp : Word
  /-- RAMPZ; its unimplemented bits are 0 (R37). -/
  rampz : Byte
  /-- Data memory by data address: internal SRAM and external memory (R42). -/
  ram : List Host.Cell
  /-- Program memory by byte address (R41, spec/20_memory.md R62; log 9). -/
  flash : List Host.Cell
  /-- The interrupt-inhibit latch (R45). -/
  inhibit : Bool
  /-- The core is asleep (R46). -/
  asleep : Bool
  /-- The device's parameters (spec/00_scope.md R5; log 3). No step changes them. -/
  par : Params
  /-- The platform's lines at the present instruction boundary (log 11). -/
  pins : Pins
  /-- The lines at the coming boundaries, the next one first (log 11). -/
  inputs : List Pins
  /-- The platform's answers to the coming reads of device locations, the next one first (log 10). -/
  devIn : List Byte
  /-- What the platform has seen, newest first (spec/20_memory.md R72, spec/60_exceptions.md R309; log 10). -/
  trace : List Event
  /-- How many free values the run has used (log 12). The model's own. -/
  freeCount : Nat
  /-- How many reset events the run has carried out (log 13). The model's own. -/
  resets : Nat
  /-- The cycle total of spec/70_reset_and_hazards.md R343, which nothing reads (log 14). The model's own. -/
  cycles : Nat
  deriving DecidableEq, Repr

/-- Why the machine is stuck: spec/20_memory.md R73 gives no step. The hardware has no fault (R305), so these are
the model's names for "no step" (log 21). -/
inductive Fault where
  /-- Raised by a load, store, push or pop at a data address that the map of R70 gives to nothing. Safe: the
  hardware does something the spec does not describe, and the model proves nothing about it. -/
  | unmappedData (addr : Word)
  /-- Raised by a fetch, LPM, ELPM or a skip's look-ahead at a program byte address at or beyond
  2 x `FLASH_WORDS`. Safe, as above. -/
  | unmappedProgram (byteAddr : Nat)
  deriving DecidableEq, Repr

/-- Why the model gives an instruction no meaning. -/
inductive Refusal where
  /-- Raised by an arm of `exec` whose instruction has no meaning yet. Safe. No arm of this model raises it. -/
  | notModelled (mnemonic : String)
  /-- Raised by the step on a word that selects no row of the opcode table (spec/30_encoding.md R112). Safe. -/
  | reservedEncoding (w : Word)
  /-- Raised by SPM: spec/43_data_transfer.md R251 gives it no meaning. Safe. -/
  | spmMechanismNotInSource
  deriving DecidableEq, Repr

/-- The machine right after reset (spec/10_state.md R48). The registers' zeros are a DESIGN CHOICE (log 1),
the parameters are log 2 to log 5, the platform's lines log 11, the model's own fields log 10 to log 14. -/
def State.reset : State where
  regs := Vector.replicate 32 0
  pc := defaultParams.resetVector
  sreg := 0
  sp := defaultParams.spReset
  rampz := 0
  ram := []
  flash := []
  inhibit := false
  asleep := false
  par := defaultParams
  pins := quietPins
  inputs := []
  devIn := []
  trace := []
  freeCount := 0
  resets := 0
  cycles := 0

end Sys2Proof.Machine
end

