-- ==== Sys2Proof/Machine/Ops.lean ====
section
/-! DEFINITION. The named operations over memory and registers: the canonical memories, the accessors of
the state, the data space of spec/20_memory.md R70, program memory (R62), the stack (spec/10_state.md R36),
the skip of spec/41_branch.md R161, interrupt entry and return (spec/60_exceptions.md R313, R315) and the
reset event (spec/70_reset_and_hazards.md R331). -/

namespace Sys2Proof.Machine

/-- What an instruction, an interrupt entry or a step answers. -/
abbrev Result := Host.Outcome State Fault Refusal

/-- An outcome from a state that an operation reached or could not reach. -/
def settle (r : Except Fault State) : Result :=
  match r with
  | .ok s => .next s
  | .error f => .fault f

/-! ### Memories as lists of cells in one canonical form -/

/-- The byte listed at an address, none where nothing is listed. -/
def Memory.read (m : List Host.Cell) (a : Nat) : Option Byte :=
  match m with
  | [] => none
  | c :: rest => if a = c.1 then some c.2 else Memory.read rest a

/-- Lists `v` at `a`, in place. -/
def Memory.put (m : List Host.Cell) (a : Nat) (v : Byte) : List Host.Cell :=
  match m with
  | [] => [(a, v)]
  | c :: rest =>
    if a < c.1 then (a, v) :: c :: rest
    else if a = c.1 then (a, v) :: rest
    else c :: Memory.put rest a v

/-- Takes `a` off the list. -/
def Memory.erase (m : List Host.Cell) (a : Nat) : List Host.Cell :=
  match m with
  | [] => []
  | c :: rest => if a = c.1 then rest else c :: Memory.erase rest a

/-- Writes `v` at `a` in a memory whose unlisted addresses read as `blank` (none: a value the spec does
not fix, so that every written byte is listed). -/
def Memory.write (blank : Option Byte) (m : List Host.Cell) (a : Nat) (v : Byte) : List Host.Cell :=
  if blank = some v then Memory.erase m a else Memory.put m a v

/-- The canonical form: addresses strictly rising, and no entry equal to what an unlisted address reads as. -/
abbrev Memory.wf (blank : Option Byte) (m : List Host.Cell) : Prop :=
  m.Pairwise (fun c d => c.1 < d.1) ∧ ∀ c ∈ m, some c.2 ≠ blank

/-- An unlisted byte of data memory has no fixed value (spec/10_state.md R48; log 6). -/
def ramBlank : Option Byte := none

/-- An unlisted byte of program memory is erased and reads 0xFF (spec/42_mcu_control.md R210; log 7). -/
def flashBlank : Byte := 0xFF

/-! ### Accessors of the state -/

/-- `R[i]` (spec/00_scope.md R10). -/
def State.reg (i : Reg) (s : State) : Byte := s.regs[i.val]

/-- `R[i] <- v`. -/
def State.setReg (i : Reg) (v : Byte) (s : State) : State := { s with regs := s.regs.set i.val v }

/-- `RW[i]`: the pair `R[i+1] : R[i]` (spec/00_scope.md R10). -/
def State.pair (i : Reg) (s : State) : Word := joinBytes (s.reg (i + 1)) (s.reg i)

/-- `RW[i] <- w`. -/
def State.setPair (i : Reg) (w : Word) (s : State) : State :=
  (s.setReg i (lowByte w)).setReg (i + 1) (highByte w)

def State.setPc (w : Word) (s : State) : State := { s with pc := w }

def State.setSreg (v : Byte) (s : State) : State := { s with sreg := v }

def State.setSp (w : Word) (s : State) : State := { s with sp := w }

def State.setRampz (v : Byte) (s : State) : State := { s with rampz := v }

def State.setRam (m : List Host.Cell) (s : State) : State := { s with ram := m }

def State.setFlash (m : List Host.Cell) (s : State) : State := { s with flash := m }

def State.setInhibit (b : Bool) (s : State) : State := { s with inhibit := b }

def State.setAsleep (b : Bool) (s : State) : State := { s with asleep := b }

def State.setDevIn (l : List Byte) (s : State) : State := { s with devIn := l }

/-- Adds an event to what the platform has seen. -/
def State.record (e : Event) (s : State) : State := { s with trace := e :: s.trace }

/-- Adds to the cycle total (spec/70_reset_and_hazards.md R342, R343). -/
def State.addCycles (n : Nat) (s : State) : State := { s with cycles := s.cycles + n }

/-- Counts one free value as used. -/
def State.useFree (s : State) : State := { s with freeCount := s.freeCount + 1 }

/-- The next free byte of the run (log 12). -/
def State.freeByte (s : State) : Byte := Config.freeByte s.freeCount

/-- The next free bit of the run (log 24). -/
def State.freeBit (s : State) : Bool := Config.freeBit s.freeCount

/-- A bit of SREG. -/
def State.flag (n : BitNo) (s : State) : Bool := bitOf s.sreg n

/-- `pc <- pc + len` modulo 2^16 (spec/10_state.md R27), and the instruction's cycles. -/
def State.advance (len : Nat) (cyc : Nat) (s : State) : State :=
  (s.setPc (s.pc + BitVec.ofNat 16 len)).addCycles cyc

/-- `pc <- target`, and the instruction's cycles. -/
def State.jump (target : Word) (cyc : Nat) (s : State) : State := (s.setPc target).addCycles cyc

/-! ### Program memory (spec/20_memory.md R62) -/

/-- The byte of program memory at byte address `a`, mapped or not. -/
def State.flashByte (a : Nat) (s : State) : Byte := (Memory.read s.flash a).getD flashBlank

/-- `ProgByte(a)`, none beyond program memory (R73). -/
def State.progByte (a : Nat) (s : State) : Option Byte :=
  if a < 2 * s.par.flashWords then some (s.flashByte a) else none

/-- `ProgWord(w)`, none at or above `FLASH_WORDS` (R73). -/
def State.progWord (w : Word) (s : State) : Option Word :=
  if w.toNat < s.par.flashWords then
    some (joinBytes (s.flashByte (2 * w.toNat + 1)) (s.flashByte (2 * w.toNat)))
  else none

/-! ### The data space (spec/20_memory.md R70) -/

/-- What the map of R70 has at a data address. -/
inductive Region where
  /-- A general register. -/
  | reg (i : Reg)
  /-- RAMPZ, I/O 0x3B. -/
  | rampz
  /-- SPL, I/O 0x3D. -/
  | spl
  /-- SPH, I/O 0x3E. -/
  | sph
  /-- SREG, I/O 0x3F. -/
  | sreg
  /-- An I/O or extended I/O location that belongs to the platform (R72). -/
  | device
  /-- Internal SRAM or external memory. -/
  | memory
  /-- Nothing (R73). -/
  | unmapped
  deriving DecidableEq, Repr

/-- The map of R70 on a device with parameters `p`. -/
def region (p : Params) (a : Word) : Region :=
  if h : a.toNat < 32 then .reg ⟨a.toNat, h⟩
  else if a = 0x5B then .rampz
  else if a = 0x5D then .spl
  else if a = 0x5E then .sph
  else if a = 0x5F then .sreg
  else if a.toNat ≤ 0x5F then .device
  else if a.toNat ≤ p.extIoEnd then .device
  else if p.ramStart ≤ a.toNat && a.toNat ≤ p.ramEnd then .memory
  else if p.ramEnd < a.toNat && a.toNat ≤ p.extMemEnd then .memory
  else .unmapped

/-- The byte of SRAM or external memory at address `a`: what was written there last, else the unspecified
contents after the last reset (log 6). -/
def State.ramByte (a : Nat) (s : State) : Byte :=
  (Memory.read s.ram a).getD (Config.ramAtReset s.resets a)

/-- The bits of RAMPZ that exist (spec/10_state.md R34). -/
def rampzMask (p : Params) : Byte := BitVec.ofNat 8 (2 ^ p.rampzBits - 1)

/-- The platform's answer to a read of the device location at `a` (R72; log 10). -/
def deviceAnswer (a : Word) (s : State) : Byte :=
  match s.devIn with
  | v :: _ => v
  | [] => Config.ioDevRead a s.trace

/-- A read of the device location at `a` is answered and seen by the platform. -/
def deviceRead (a : Word) (s : State) : Byte × State :=
  (deviceAnswer a s, (s.setDevIn s.devIn.tail).record (.devRead a (deviceAnswer a s)))

/-- A write of all of SREG (spec/10_state.md R33). When it turns I on, the inhibit latch may or may not be set
(R45, spec/93_implementation_defined.md U10; log 24). -/
def writeSreg (v : Byte) (s : State) : State :=
  if bitOf v flagI && !s.flag flagI then ((s.setSreg v).setInhibit s.freeBit).useFree
  else s.setSreg v

/-- `MemRead(a, 1)` (spec/00_scope.md R11). -/
def loadByte (a : Word) (s : State) : Except Fault (Byte × State) :=
  match region s.par a with
  | .reg i => .ok (s.reg i, s)
  | .rampz => .ok (s.rampz &&& rampzMask s.par, s)
  | .spl => .ok (lowByte s.sp, s)
  | .sph => .ok (highByte s.sp, s)
  | .sreg => .ok (s.sreg, s)
  | .device => .ok (deviceRead a s)
  | .memory => .ok (s.ramByte a.toNat, s)
  | .unmapped => .error (.unmappedData a)

/-- `MemWrite(a, 1, v)` (spec/00_scope.md R11). -/
def storeByte (a : Word) (v : Byte) (s : State) : Except Fault State :=
  match region s.par a with
  | .reg i => .ok (s.setReg i v)
  | .rampz => .ok (s.setRampz (v &&& rampzMask s.par))
  | .spl => .ok (s.setSp (joinBytes (highByte s.sp) v))
  | .sph => .ok (s.setSp (joinBytes v (lowByte s.sp)))
  | .sreg => .ok (writeSreg v s)
  | .device => .ok (s.record (.devWrite a v))
  | .memory => .ok (s.setRam (Memory.write ramBlank s.ram a.toNat v))
  | .unmapped => .error (.unmappedData a)

/-! ### The stack (spec/10_state.md R36) -/

/-- The data addresses of SPL and SPH: an access there by an instruction that also updates SP is the open case
of spec/93_implementation_defined.md U5 (log 19). -/
def isSpByte (a : Word) : Bool := a == 0x5D || a == 0x5E

/-- SP after the stack bytes were written: `sp` by the rule, or a free value where a stack byte lay on SPL or
SPH (U5; log 19). -/
def settleSp (clash : Bool) (sp : Word) (s : State) : State :=
  if clash then (s.setSp (joinBytes s.useFree.freeByte s.freeByte)).useFree.useFree else s.setSp sp

/-- `Push8(v)`. -/
def push8 (v : Byte) (s : State) : Except Fault State :=
  match storeByte s.sp v s with
  | .error f => .error f
  | .ok t => .ok (settleSp (isSpByte s.sp) (s.sp - 1) t)

/-- `PushPC(v)`: the low byte at SP, then the high byte at SP - 1. -/
def pushPc (v : Word) (s : State) : Except Fault State :=
  match storeByte s.sp (lowByte v) s with
  | .error f => .error f
  | .ok t =>
    match storeByte (s.sp - 1) (highByte v) t with
    | .error f => .error f
    | .ok u => .ok (settleSp (isSpByte s.sp || isSpByte (s.sp - 1)) (s.sp - 2) u)

/-- A byte popped from `a`: the byte there, or a free value where the instruction also updates the location
(U5; log 19, log 20). The location is read in either case. -/
def popByteAt (clash : Bool) (a : Word) (s : State) : Except Fault (Byte × State) :=
  match loadByte a s with
  | .error f => .error f
  | .ok (v, t) => .ok (if clash then (t.freeByte, t.useFree) else (v, t))

/-- `Pop8()`. -/
def pop8 (s : State) : Except Fault (Byte × State) :=
  match popByteAt (isSpByte (s.sp + 1)) (s.sp + 1) s with
  | .error f => .error f
  | .ok (v, t) => .ok (v, t.setSp (s.sp + 1))

/-- A stack byte at `a` that a return reads and also updates: SPL or SPH, and SREG in a RETI (U5). -/
def isReturnClash (writesSreg : Bool) (a : Word) : Bool := isSpByte a || (writesSreg && a == 0x5F)

/-- `PopPC()`: the high byte at SP + 1, then the low byte at SP + 2. -/
def popPc (writesSreg : Bool) (s : State) : Except Fault (Word × State) :=
  match popByteAt (isReturnClash writesSreg (s.sp + 1)) (s.sp + 1) s with
  | .error f => .error f
  | .ok (h, t) =>
    match popByteAt (isReturnClash writesSreg (s.sp + 2)) (s.sp + 2) t with
    | .error f => .error f
    | .ok (l, u) => .ok (joinBytes h l, u.setSp (s.sp + 2))

/-! ### Skips (spec/41_branch.md R161) -/

/-- `Skip(cond)`, with the cycles of spec/70_reset_and_hazards.md R343. Where there is no program word to look
at, a skip has no step (spec/20_memory.md R73). -/
def skip (cond : Bool) (s : State) : Result :=
  match s.progWord (s.pc + 1) with
  | some n =>
    .next (if cond then (if isTwoWord n then s.advance 3 3 else s.advance 2 2) else s.advance 1 1)
  | none =>
    if cond then .fault (.unmappedProgram (2 * (s.pc + 1).toNat)) else .next (s.advance 1 1)

/-! ### Turning I on -/

/-- `SREG.I <- 1` by SEI or BSET 7. I was 0: the inhibit latch is set. I was 1: it may or may not be
(spec/44_bit_and_bit_test.md R285; log 24). -/
def enableInterrupts (s : State) : State :=
  if s.flag flagI then (s.setInhibit s.freeBit).useFree
  else (s.setSreg (putBit s.sreg flagI true)).setInhibit true

/-- `SREG[n] <- 1` (spec/44_bit_and_bit_test.md R275). -/
def setSregBit (n : BitNo) (s : State) : State :=
  if n = flagI then enableInterrupts s else s.setSreg (putBit s.sreg n true)

/-- `SREG[n] <- 0` (spec/44_bit_and_bit_test.md R276). -/
def clearSregBit (n : BitNo) (s : State) : State := s.setSreg (putBit s.sreg n false)

/-! ### Interrupt entry and return (spec/60_exceptions.md) -/

/-- The word address of vector `n` (R309). -/
def vectorAddress (p : Params) (n : Nat) : Word := BitVec.ofNat 16 (p.vectorBase + n * p.vectorStride)

/-- A byte of the return address was stacked on SREG, which entry also updates (U5; log 20). -/
def entryHitsSreg (s : State) : Bool := s.sp == 0x5F || s.sp - 1 == 0x5F

/-- `SREG.I <- 0`, or all of SREG open where the stack lay on it (U5; log 20). -/
def entrySreg (hit : Bool) (s : State) : State :=
  if hit then (s.setSreg s.freeByte).useFree else s.setSreg (putBit s.sreg flagI false)

/-- `Enter(n)`: the return address on the stack, I off, awake, the latch off, the platform told, pc at the
vector (R313). Four cycles (spec/70_reset_and_hazards.md R344). -/
def enterInterrupt (n : Nat) (s : State) : Result :=
  match pushPc s.pc s with
  | .error f => .fault f
  | .ok t =>
    .next (((((entrySreg (entryHitsSreg s) t).setAsleep false).setInhibit false).record (.irqAck n)).jump
      (vectorAddress s.par n) 4)

/-- The return from an interrupt: the return address from the stack, I on, the latch set (R315,
spec/41_branch.md R170). Four cycles. -/
def returnFromInterrupt (s : State) : Result :=
  match popPc true s with
  | .error f => .fault f
  | .ok (w, t) => .next (((t.setSreg (putBit t.sreg flagI true)).setInhibit true).jump w 4)

/-! ### Reset (spec/70_reset_and_hazards.md R330, R331) -/

/-- The reset event. General registers and data memory are unspecified afterwards (log 13); program memory, the
parameters and the platform's side stay. -/
def resetEvent (s : State) : State :=
  { s with
    regs := Vector.ofFn (fun i : Reg => Config.regAtReset (s.resets + 1) i)
    pc := s.par.resetVector
    sreg := 0
    sp := s.par.spReset
    rampz := 0
    ram := []
    inhibit := false
    asleep := false
    trace := .reset :: s.trace
    resets := s.resets + 1 }

/-! ### The platform's lines at an instruction boundary (spec/60_exceptions.md R309, R311) -/

/-- The lines take their next values; they keep their values where none is given (log 11). -/
def State.sample (s : State) : State :=
  match s.inputs with
  | [] => s
  | p :: rest => { s with pins := p, inputs := rest }

/-- `min(IRQ)`: the requesting vector of highest priority, if any (R311). -/
def State.pending (s : State) : Option Nat :=
  (s.pins.irq.filter (fun n => 1 ≤ n && n < s.par.nVectors)).min?

end Sys2Proof.Machine
end

