-- ==== Sys2Proof/Machine/Operands.lean ====
section
/-! DEFINITION. Every operand form: the pointers X, Y, Z with their updates (spec/43_data_transfer.md R215, R216
and the open cases U3 to U6 of spec/93_implementation_defined.md), program-memory operands (R217), I/O
locations, relative and absolute code addresses (spec/41_branch.md R160, spec/30_encoding.md R100). -/

namespace Sys2Proof.Machine

/-! ### Pointers -/

/-- The pointer registers (spec/10_state.md R22). -/
inductive Ptr where
  /-- R27:R26. -/
  | x
  /-- R29:R28. -/
  | y
  /-- R31:R30. -/
  | z
  deriving DecidableEq, Repr

/-- The register holding a pointer's low byte. -/
def Ptr.lo (p : Ptr) : Reg :=
  match p with
  | .x => 26
  | .y => 28
  | .z => 30

/-- The register holding a pointer's high byte. -/
def Ptr.hi (p : Ptr) : Reg :=
  match p with
  | .x => 27
  | .y => 29
  | .z => 31

/-- The value of a pointer. -/
def State.ptr (p : Ptr) (s : State) : Word := joinBytes (s.reg p.hi) (s.reg p.lo)

/-- Both halves of a pointer are written. -/
def State.setPtr (p : Ptr) (w : Word) (s : State) : State :=
  (s.setReg p.lo (lowByte w)).setReg p.hi (highByte w)

/-- Both halves of a pointer become free values (U3, U6; log 16). -/
def State.freePtr (p : Ptr) (s : State) : State :=
  (s.setPtr p (joinBytes s.useFree.freeByte s.freeByte)).useFree.useFree

/-- `d` is half of the pointer. -/
def isHalf (p : Ptr) (d : Reg) : Bool := d == p.lo || d == p.hi

/-- `a` is the data address of half of the pointer (U5). -/
def isHalfAddr (p : Ptr) (a : Word) : Bool := a.toNat == p.lo.val || a.toNat == p.hi.val

/-- `Y + q`, `Z + q` modulo 2^16 (R215). -/
def dispAddr (p : Ptr) (q : BitVec 6) (s : State) : Word := s.ptr p + q.setWidth 16

/-! ### Loads and stores of data space -/

/-- A load that updates no pointer: `R[d] <- MemRead(a, 1)`, for an instruction of `len` words and `cyc` cycles. -/
def loadPlain (len cyc : Nat) (d : Reg) (a : Word) (s : State) : Result :=
  match loadByte a s with
  | .error f => .fault f
  | .ok (v, t) => .next ((t.setReg d v).advance len cyc)

/-- What a load through an updated pointer leaves in `Rd` and the pointer: `v` and `new` by the rule; both halves
free where `Rd` is one of them (U3; log 16); `Rd` free where the byte read was one of them (U5; log 18). -/
def loadedInto (p : Ptr) (d : Reg) (a new : Word) (v : Byte) (t : State) : State :=
  if isHalf p d then t.freePtr p
  else if isHalfAddr p a then ((t.setReg d t.freeByte).setPtr p new).useFree
  else (t.setReg d v).setPtr p new

/-- A load from `a` that updates the pointer to `new`, two cycles. -/
def loadUpdate (p : Ptr) (d : Reg) (a new : Word) (s : State) : Result :=
  match loadByte a s with
  | .error f => .fault f
  | .ok (v, t) => .next ((loadedInto p d a new v t).advance 1 2)

/-- A store that updates no pointer: `MemWrite(a, 1, R[r])`, for an instruction of `len` words and `cyc` cycles. -/
def storePlain (len cyc : Nat) (r : Reg) (a : Word) (s : State) : Result :=
  settle ((storeByte a (s.reg r) s).map (fun t => t.advance len cyc))

/-- The byte that a store through an updated pointer writes, and whether a free value was used for it: `Rr` may be
half of the pointer (U4; log 17). -/
def storedByte (p : Ptr) (r : Reg) (s : State) : Byte × State :=
  if isHalf p r then (s.freeByte, s.useFree) else (s.reg r, s)

/-- The pointer after a store through it: `new`, but the half the store addressed is free (U5; log 18). -/
def storedPtr (p : Ptr) (a new : Word) (t : State) : State :=
  if a.toNat = p.lo.val then (t.setPtr p (joinBytes (highByte new) t.freeByte)).useFree
  else if a.toNat = p.hi.val then (t.setPtr p (joinBytes t.freeByte (lowByte new))).useFree
  else t.setPtr p new

/-- A store to `a` that updates the pointer to `new`, two cycles. -/
def storeUpdate (p : Ptr) (r : Reg) (a new : Word) (s : State) : Result :=
  settle ((storeByte a (storedByte p r s).1 (storedByte p r s).2).map
    (fun t => (storedPtr p a new t).advance 1 2))

/-- `LD Rd, P`. -/
def loadPtr (p : Ptr) (d : Reg) (s : State) : Result := loadPlain 1 2 d (s.ptr p) s

/-- `LD Rd, P+`: the old pointer is the address. -/
def loadInc (p : Ptr) (d : Reg) (s : State) : Result := loadUpdate p d (s.ptr p) (s.ptr p + 1) s

/-- `LD Rd, -P`: the new pointer is the address. -/
def loadDec (p : Ptr) (d : Reg) (s : State) : Result := loadUpdate p d (s.ptr p - 1) (s.ptr p - 1) s

/-- `LDD Rd, P+q`. -/
def loadDisp (p : Ptr) (d : Reg) (q : BitVec 6) (s : State) : Result := loadPlain 1 2 d (dispAddr p q s) s

/-- `ST P, Rr`. -/
def storePtr (p : Ptr) (r : Reg) (s : State) : Result := storePlain 1 2 r (s.ptr p) s

/-- `ST P+, Rr`: the old pointer is the address. -/
def storeInc (p : Ptr) (r : Reg) (s : State) : Result := storeUpdate p r (s.ptr p) (s.ptr p + 1) s

/-- `ST -P, Rr`: the new pointer is the address. -/
def storeDec (p : Ptr) (r : Reg) (s : State) : Result := storeUpdate p r (s.ptr p - 1) (s.ptr p - 1) s

/-- `STD P+q, Rr`. -/
def storeDisp (p : Ptr) (q : BitVec 6) (r : Reg) (s : State) : Result :=
  storePlain 1 2 r (dispAddr p q s) s

/-! ### Program-memory operands (R217) -/

/-- The byte address of LPM: Z. -/
def lpmAddr (s : State) : Nat := (s.ptr .z).toNat

/-- The byte address of ELPM: the implemented bits of RAMPZ above Z. -/
def elpmAddr (s : State) : Nat := (s.rampz &&& rampzMask s.par).toNat * 65536 + (s.ptr .z).toNat

/-- `R[d] <- ProgByte(a)`, three cycles. -/
def loadProg (d : Reg) (a : Nat) (s : State) : Result :=
  match s.progByte a with
  | none => .fault (.unmappedProgram a)
  | some v => .next ((s.setReg d v).advance 1 3)

/-- What a program-memory load leaves in `Rd` and Z: both halves of Z free where `Rd` is one of them (U6; log 16). -/
def progLoadedInto (d : Reg) (v : Byte) (newZ : Word) (s : State) : State :=
  if isHalf .z d then s.freePtr .z else (s.setReg d v).setPtr .z newZ

/-- `LPM Rd, Z+`: the carry out of Z is dropped (R247). -/
def lpmIncrement (d : Reg) (s : State) : Result :=
  match s.progByte (lpmAddr s) with
  | none => .fault (.unmappedProgram (lpmAddr s))
  | some v => .next ((progLoadedInto d v (s.ptr .z + 1) s).advance 1 3)

/-- The address after `ELPM Rd, Z+`, modulo 2^(RAMPZ_BITS + 16) (R250). -/
def elpmNext (s : State) : Nat := (elpmAddr s + 1) % 2 ^ (s.par.rampzBits + 16)

/-- `ELPM Rd, Z+`: the carry out of Z goes into RAMPZ (R250), whichever `Rd` is (log 20). -/
def elpmIncrement (d : Reg) (s : State) : Result :=
  match s.progByte (elpmAddr s) with
  | none => .fault (.unmappedProgram (elpmAddr s))
  | some v =>
    .next (((progLoadedInto d v (BitVec.ofNat 16 (elpmNext s)) s).setRampz
      (BitVec.ofNat 8 (elpmNext s / 65536))).advance 1 3)

/-! ### I/O locations (spec/00_scope.md R11) -/

/-- The data address of I/O location `a` of IN and OUT. -/
def ioAddr (a : BitVec 6) : Word := 0x20 + a.setWidth 16

/-- The data address of I/O location `a` of SBI, CBI, SBIC and SBIS. -/
def ioBitAddr (a : BitVec 5) : Word := 0x20 + a.setWidth 16

/-! ### Code addresses -/

/-- `(pc + 1 + sext(k)) mod 2^16` (R160), for a field of `n` bits. -/
def relTarget (n : Nat) (k : BitVec n) (pc : Word) : Word := pc + 1 + k.signExtend 16

/-- `k mod 2^16` of a 22-bit address (R165). -/
def absTarget (k : BitVec 22) : Word := k.extractLsb' 0 16

end Sys2Proof.Machine
end

