-- ==== Sys2Proof/Machine/Arith.lean ====
section
/-! DEFINITION. The meanings of group T1, arithmetic and logic (spec/40_arithmetic_logic.md R125 to R152), over a few
shared operations. Operands are read before anything is written (R120). -/

namespace Sys2Proof.Machine

/-! ### Shared operations -/

/-- A carry or borrow as a byte. -/
def carryByte (c : Bool) : Byte := (BitVec.ofBool c).setWidth 8

/-- One register and SREG are written, one word. -/
def writeResult (cyc : Nat) (d : Reg) (v sreg : Byte) (s : State) : Result :=
  .next (((s.setReg d v).setSreg sreg).advance 1 cyc)

/-- SREG alone is written, one word. -/
def writeFlags (sreg : Byte) (s : State) : Result := .next ((s.setSreg sreg).advance 1 1)

/-- The result of `a + b + cin` modulo 2^8. -/
def addResult (a b : Byte) (cin : Bool) : Byte := a + b + carryByte cin

/-- The result of `a - b - bin` modulo 2^8. -/
def subResult (a b : Byte) (bin : Bool) : Byte := a - b - carryByte bin

/-- `Rd <- Rd + b + cin`, flags by R121. -/
def addInto (d : Reg) (b : Byte) (cin : Bool) (s : State) : Result :=
  writeResult 1 d (addResult (s.reg d) b cin)
    (addFlags (s.reg d) b (addResult (s.reg d) b cin) s.sreg) s

/-- The flags of `a - b - bin` by R122: Z from the result alone, or (sticky) kept set only if it was set. -/
def subSreg (a b : Byte) (bin sticky : Bool) (sreg : Byte) : Byte :=
  subFlags a b (subResult a b bin)
    (subResult a b bin == 0 && (!sticky || bitOf sreg flagZ)) sreg

/-- `Rd <- Rd - b - bin`, flags by R122. -/
def subInto (d : Reg) (b : Byte) (bin sticky : Bool) (s : State) : Result :=
  writeResult 1 d (subResult (s.reg d) b bin) (subSreg (s.reg d) b bin sticky s.sreg) s

/-- A logic operation's result and flags (R123). -/
def logicInto (d : Reg) (r : Byte) (s : State) : Result := writeResult 1 d r (logicFlags r s.sreg) s

/-- A register pair and SREG are written, two cycles. -/
def writePair (d : Reg) (w : Word) (sreg : Byte) (s : State) : Result :=
  .next (((s.setPair d w).setSreg sreg).advance 1 2)

/-- R1:R0 receives `w`, Z and C come from `w` and the product pattern `p` (R124), two cycles. -/
def writeProduct (p w : Word) (s : State) : Result := writePair 0 w (mulFlags p w s.sreg) s

/-- The unsigned product (R124). -/
def mulUU (a b : Byte) : Word := BitVec.ofNat 16 (a.toNat * b.toNat)

/-- The signed product (R124). -/
def mulSS (a b : Byte) : Word := BitVec.ofInt 16 (a.toInt * b.toInt)

/-- The product of a signed and an unsigned byte (R124). -/
def mulSU (a b : Byte) : Word := BitVec.ofInt 16 (a.toInt * b.toNat)

/-- `(P << 1)[15:0]` of the fractional forms (R124). -/
def fraction (p : Word) : Word := p <<< 1

/-! ### Addition and subtraction -/

/-- `ADD Rd, Rr` (R125). -/
def execAdd (d r : Reg) (s : State) : Result := addInto d (s.reg r) false s

/-- `ADC Rd, Rr` (R126). -/
def execAdc (d r : Reg) (s : State) : Result := addInto d (s.reg r) (s.flag flagC) s

/-- `ADIW Rdl, K` (R127). -/
def execAdiw (d : Reg) (k : BitVec 6) (s : State) : Result :=
  writePair d (s.pair d + k.setWidth 16) (adiwFlags (s.pair d) (s.pair d + k.setWidth 16) s.sreg) s

/-- `SUB Rd, Rr` (R128). -/
def execSub (d r : Reg) (s : State) : Result := subInto d (s.reg r) false false s

/-- `SUBI Rd, K` (R129). -/
def execSubi (d : Reg) (k : Byte) (s : State) : Result := subInto d k false false s

/-- `SBC Rd, Rr` (R130). -/
def execSbc (d r : Reg) (s : State) : Result := subInto d (s.reg r) (s.flag flagC) true s

/-- `SBCI Rd, K` (R131). -/
def execSbci (d : Reg) (k : Byte) (s : State) : Result := subInto d k (s.flag flagC) true s

/-- `SBIW Rdl, K` (R132). -/
def execSbiw (d : Reg) (k : BitVec 6) (s : State) : Result :=
  writePair d (s.pair d - k.setWidth 16) (sbiwFlags (s.pair d) (s.pair d - k.setWidth 16) s.sreg) s

/-! ### Logic -/

/-- `AND Rd, Rr` (R133). -/
def execAnd (d r : Reg) (s : State) : Result := logicInto d (s.reg d &&& s.reg r) s

/-- `ANDI Rd, K` (R134). -/
def execAndi (d : Reg) (k : Byte) (s : State) : Result := logicInto d (s.reg d &&& k) s

/-- `OR Rd, Rr` (R135). -/
def execOr (d r : Reg) (s : State) : Result := logicInto d (s.reg d ||| s.reg r) s

/-- `ORI Rd, K` (R136). -/
def execOri (d : Reg) (k : Byte) (s : State) : Result := logicInto d (s.reg d ||| k) s

/-- `EOR Rd, Rr` (R137). -/
def execEor (d r : Reg) (s : State) : Result := logicInto d (s.reg d ^^^ s.reg r) s

/-- `COM Rd` (R138). -/
def execCom (d : Reg) (s : State) : Result :=
  writeResult 1 d (0xFF - s.reg d) (comFlags (0xFF - s.reg d) s.sreg) s

/-- `NEG Rd` (R139). -/
def execNeg (d : Reg) (s : State) : Result :=
  writeResult 1 d (0 - s.reg d) (negFlags (s.reg d) (0 - s.reg d) s.sreg) s

/-- `SBR Rd, K` (R140). -/
def execSbr (d : Reg) (k : Byte) (s : State) : Result := logicInto d (s.reg d ||| k) s

/-- `CBR Rd, K` (R141). -/
def execCbr (d : Reg) (k : Byte) (s : State) : Result := logicInto d (s.reg d &&& (0xFF - k)) s

/-! ### Increment, decrement, test, clear, set -/

/-- `INC Rd` (R142). -/
def execInc (d : Reg) (s : State) : Result :=
  writeResult 1 d (s.reg d + 1) (incFlags (s.reg d + 1) s.sreg) s

/-- `DEC Rd` (R143). -/
def execDec (d : Reg) (s : State) : Result :=
  writeResult 1 d (s.reg d - 1) (decFlags (s.reg d - 1) s.sreg) s

/-- `TST Rd` (R144). -/
def execTst (d : Reg) (s : State) : Result := logicInto d (s.reg d &&& s.reg d) s

/-- `CLR Rd` (R145). -/
def execClr (d : Reg) (s : State) : Result := logicInto d 0 s

/-- `SER Rd` (R146). No flag. -/
def execSer (d : Reg) (s : State) : Result := writeResult 1 d 0xFF s.sreg s

/-! ### Multiplication -/

/-- `MUL Rd, Rr` (R147). -/
def execMul (d r : Reg) (s : State) : Result :=
  writeProduct (mulUU (s.reg d) (s.reg r)) (mulUU (s.reg d) (s.reg r)) s

/-- `MULS Rd, Rr` (R148). -/
def execMuls (d r : Reg) (s : State) : Result :=
  writeProduct (mulSS (s.reg d) (s.reg r)) (mulSS (s.reg d) (s.reg r)) s

/-- `MULSU Rd, Rr` (R149). -/
def execMulsu (d r : Reg) (s : State) : Result :=
  writeProduct (mulSU (s.reg d) (s.reg r)) (mulSU (s.reg d) (s.reg r)) s

/-- `FMUL Rd, Rr` (R150). -/
def execFmul (d r : Reg) (s : State) : Result :=
  writeProduct (mulUU (s.reg d) (s.reg r)) (fraction (mulUU (s.reg d) (s.reg r))) s

/-- `FMULS Rd, Rr` (R151). -/
def execFmuls (d r : Reg) (s : State) : Result :=
  writeProduct (mulSS (s.reg d) (s.reg r)) (fraction (mulSS (s.reg d) (s.reg r))) s

/-- `FMULSU Rd, Rr` (R152). -/
def execFmulsu (d r : Reg) (s : State) : Result :=
  writeProduct (mulSU (s.reg d) (s.reg r)) (fraction (mulSU (s.reg d) (s.reg r))) s

end Sys2Proof.Machine
end

