-- ==== Sys2Proof/Machine/Bits.lean ====
section
/-! DEFINITION. The meanings of group T5, bit and bit-test (spec/44_bit_and_bit_test.md R267 to R294), over a few shared
operations. -/

namespace Sys2Proof.Machine

/-! ### Shared operations -/

/-- A shift's result and flags, one word, one cycle. -/
def writeShift (d : Reg) (v sreg : Byte) (s : State) : Result :=
  .next (((s.setReg d v).setSreg sreg).advance 1 1)

/-- A left shift by one with `bit0` entering, flags by R265. -/
def shiftLeft (d : Reg) (bit0 : Bool) (s : State) : Result :=
  let a := s.reg d
  let r := a <<< 1 ||| (BitVec.ofBool bit0).setWidth 8
  writeShift d r (shiftLeftFlags a a[7] r s.sreg) s

/-- A right shift by one with `bit7` entering, flags by R265. -/
def shiftRight (d : Reg) (bit7 : Bool) (s : State) : Result :=
  let a := s.reg d
  let r := BitVec.ofBool bit7 ++ a.extractLsb' 1 7
  writeShift d r (shiftRightFlags a[0] r s.sreg) s

/-- Reads the I/O location at data address `a` and writes it back with bit `b` set to `on` (spec/20_memory.md
R78), two cycles. -/
def changeIoBit (a : Word) (b : BitNo) (on : Bool) (s : State) : Result :=
  match loadByte a s with
  | .error f => .fault f
  | .ok (v, t) => settle ((storeByte a (putBit v b on) t).map (fun u => u.advance 1 2))

/-! ### I/O bits -/

/-- `SBI P, b` (R267). -/
def execSbi (a : BitVec 5) (b : BitNo) (s : State) : Result := changeIoBit (ioBitAddr a) b true s

/-- `CBI P, b` (R268). -/
def execCbi (a : BitVec 5) (b : BitNo) (s : State) : Result := changeIoBit (ioBitAddr a) b false s

/-! ### Shifts and rotates -/

/-- `LSL Rd` (R269). -/
def execLsl (d : Reg) (s : State) : Result := shiftLeft d false s

/-- `LSR Rd` (R270). -/
def execLsr (d : Reg) (s : State) : Result := shiftRight d false s

/-- `ROL Rd` (R271). -/
def execRol (d : Reg) (s : State) : Result := shiftLeft d (s.flag flagC) s

/-- `ROR Rd` (R272). -/
def execRor (d : Reg) (s : State) : Result := shiftRight d (s.flag flagC) s

/-- `ASR Rd` (R273). -/
def execAsr (d : Reg) (s : State) : Result := shiftRight d (bitOf (s.reg d) 7) s

/-- `SWAP Rd` (R274). No flag. -/
def execSwap (d : Reg) (s : State) : Result :=
  .next ((s.setReg d ((s.reg d).extractLsb' 0 4 ++ (s.reg d).extractLsb' 4 4)).advance 1 1)

/-! ### SREG bits and T -/

/-- `BSET s` (R275). -/
def execBset (sb : BitNo) (s : State) : Result := .next ((setSregBit sb s).advance 1 1)

/-- `BCLR s` (R276). -/
def execBclr (sb : BitNo) (s : State) : Result := .next ((clearSregBit sb s).advance 1 1)

/-- `BST Rr, b` (R277). -/
def execBst (r : Reg) (b : BitNo) (s : State) : Result :=
  .next ((s.setSreg (putBit s.sreg flagT (bitOf (s.reg r) b))).advance 1 1)

/-- `BLD Rd, b` (R278). -/
def execBld (d : Reg) (b : BitNo) (s : State) : Result :=
  .next ((s.setReg d (putBit (s.reg d) b (s.flag flagT))).advance 1 1)

/-- `SEC` (R279). -/
def execSec (s : State) : Result := .next ((setSregBit flagC s).advance 1 1)

/-- `CLC` (R280). -/
def execClc (s : State) : Result := .next ((clearSregBit flagC s).advance 1 1)

/-- `SEN` (R281). -/
def execSen (s : State) : Result := .next ((setSregBit flagN s).advance 1 1)

/-- `CLN` (R282). -/
def execCln (s : State) : Result := .next ((clearSregBit flagN s).advance 1 1)

/-- `SEZ` (R283). -/
def execSez (s : State) : Result := .next ((setSregBit flagZ s).advance 1 1)

/-- `CLZ` (R284). -/
def execClz (s : State) : Result := .next ((clearSregBit flagZ s).advance 1 1)

/-- `SEI` (R285). -/
def execSei (s : State) : Result := .next ((enableInterrupts s).advance 1 1)

/-- `CLI` (R286). -/
def execCli (s : State) : Result := .next ((clearSregBit flagI s).advance 1 1)

/-- `SES` (R287). -/
def execSes (s : State) : Result := .next ((setSregBit flagS s).advance 1 1)

/-- `CLS` (R288). -/
def execCls (s : State) : Result := .next ((clearSregBit flagS s).advance 1 1)

/-- `SEV` (R289). -/
def execSev (s : State) : Result := .next ((setSregBit flagV s).advance 1 1)

/-- `CLV` (R290). -/
def execClv (s : State) : Result := .next ((clearSregBit flagV s).advance 1 1)

/-- `SET` (R291). -/
def execSet (s : State) : Result := .next ((setSregBit flagT s).advance 1 1)

/-- `CLT` (R292). -/
def execClt (s : State) : Result := .next ((clearSregBit flagT s).advance 1 1)

/-- `SEH` (R293). -/
def execSeh (s : State) : Result := .next ((setSregBit flagH s).advance 1 1)

/-- `CLH` (R294). -/
def execClh (s : State) : Result := .next ((clearSregBit flagH s).advance 1 1)

end Sys2Proof.Machine
end

