-- ==== Sys2Proof/Machine/Branch.lean ====
section
/-! DEFINITION. The meanings of group T2, jumps, calls, returns, compares, skips and conditional branches
(spec/41_branch.md R163 to R198), over a few shared operations. `s.pc` is the address of the instruction. -/

namespace Sys2Proof.Machine

/-! ### Shared operations -/

/-- A call: `PushPC(ret); pc <- target`. -/
def callTo (ret target : Word) (cyc : Nat) (s : State) : Result :=
  settle ((pushPc ret s).map (fun t => t.jump target cyc))

/-- A compare: the flags of `Rd - b - bin` by spec/40_arithmetic_logic.md R122, no register. -/
def compareWith (d : Reg) (b : Byte) (bin sticky : Bool) (s : State) : Result :=
  writeFlags (subSreg (s.reg d) b bin sticky s.sreg) s

/-- A skip on bit `b` of the I/O location at data address `a`, when the bit equals `want`. -/
def skipIo (a : Word) (b : BitNo) (want : Bool) (s : State) : Result :=
  match loadByte a s with
  | .error f => .fault f
  | .ok (v, t) => skip (bitOf v b == want) t

/-- A conditional branch (R162): one cycle when not taken, two when taken. -/
def branchIf (cond : Bool) (k : BitVec 7) (s : State) : Result :=
  .next (if cond then s.jump (relTarget 7 k s.pc) 2 else s.advance 1 1)

/-! ### Jumps -/

/-- `RJMP k` (R163). -/
def execRjmp (k : BitVec 12) (s : State) : Result := .next (s.jump (relTarget 12 k s.pc) 2)

/-- `IJMP` (R164). -/
def execIjmp (s : State) : Result := .next (s.jump (s.ptr .z) 2)

/-- `JMP k` (R165). -/
def execJmp (k : BitVec 22) (s : State) : Result := .next (s.jump (absTarget k) 3)

/-! ### Calls and returns -/

/-- `RCALL k` (R166). -/
def execRcall (k : BitVec 12) (s : State) : Result :=
  callTo (s.pc + 1) (relTarget 12 k s.pc) 3 s

/-- `ICALL` (R167): Z is read before the stack is written. -/
def execIcall (s : State) : Result := callTo (s.pc + 1) (s.ptr .z) 3 s

/-- `CALL k` (R168). -/
def execCall (k : BitVec 22) (s : State) : Result := callTo (s.pc + 2) (absTarget k) 4 s

/-- `RET` (R169). -/
def execRet (s : State) : Result :=
  match popPc false s with
  | .error f => .fault f
  | .ok (w, t) => .next (t.jump w 4)

/-- `RETI` (R170). -/
def execReti (s : State) : Result := returnFromInterrupt s

/-! ### Compares and skips -/

/-- `CPSE Rd, Rr` (R171). -/
def execCpse (d r : Reg) (s : State) : Result := skip (s.reg d == s.reg r) s

/-- `CP Rd, Rr` (R172). -/
def execCp (d r : Reg) (s : State) : Result := compareWith d (s.reg r) false false s

/-- `CPC Rd, Rr` (R173). -/
def execCpc (d r : Reg) (s : State) : Result := compareWith d (s.reg r) (s.flag flagC) true s

/-- `CPI Rd, K` (R174). -/
def execCpi (d : Reg) (k : Byte) (s : State) : Result := compareWith d k false false s

/-- `SBRC Rr, b` (R175). -/
def execSbrc (r : Reg) (b : BitNo) (s : State) : Result := skip (bitOf (s.reg r) b == false) s

/-- `SBRS Rr, b` (R176). -/
def execSbrs (r : Reg) (b : BitNo) (s : State) : Result := skip (bitOf (s.reg r) b == true) s

/-- `SBIC P, b` (R177). -/
def execSbic (a : BitVec 5) (b : BitNo) (s : State) : Result := skipIo (ioBitAddr a) b false s

/-- `SBIS P, b` (R178). -/
def execSbis (a : BitVec 5) (b : BitNo) (s : State) : Result := skipIo (ioBitAddr a) b true s

/-! ### Conditional branches -/

/-- `BRBS s, k` (R179). -/
def execBrbs (sb : BitNo) (k : BitVec 7) (s : State) : Result := branchIf (s.flag sb) k s

/-- `BRBC s, k` (R180). -/
def execBrbc (sb : BitNo) (k : BitVec 7) (s : State) : Result := branchIf (!s.flag sb) k s

/-- `BREQ k` (R181). -/
def execBreq (k : BitVec 7) (s : State) : Result := branchIf (s.flag flagZ) k s

/-- `BRNE k` (R182). -/
def execBrne (k : BitVec 7) (s : State) : Result := branchIf (!s.flag flagZ) k s

/-- `BRCS k` (R183). -/
def execBrcs (k : BitVec 7) (s : State) : Result := branchIf (s.flag flagC) k s

/-- `BRCC k` (R184). -/
def execBrcc (k : BitVec 7) (s : State) : Result := branchIf (!s.flag flagC) k s

/-- `BRSH k` (R185). -/
def execBrsh (k : BitVec 7) (s : State) : Result := branchIf (!s.flag flagC) k s

/-- `BRLO k` (R186). -/
def execBrlo (k : BitVec 7) (s : State) : Result := branchIf (s.flag flagC) k s

/-- `BRMI k` (R187). -/
def execBrmi (k : BitVec 7) (s : State) : Result := branchIf (s.flag flagN) k s

/-- `BRPL k` (R188). -/
def execBrpl (k : BitVec 7) (s : State) : Result := branchIf (!s.flag flagN) k s

/-- `BRGE k` (R189). The S bit of SREG is tested (spec/10_state.md R32). -/
def execBrge (k : BitVec 7) (s : State) : Result := branchIf (!s.flag flagS) k s

/-- `BRLT k` (R190). The S bit of SREG is tested (spec/10_state.md R32). -/
def execBrlt (k : BitVec 7) (s : State) : Result := branchIf (s.flag flagS) k s

/-- `BRHS k` (R191). -/
def execBrhs (k : BitVec 7) (s : State) : Result := branchIf (s.flag flagH) k s

/-- `BRHC k` (R192). -/
def execBrhc (k : BitVec 7) (s : State) : Result := branchIf (!s.flag flagH) k s

/-- `BRTS k` (R193). -/
def execBrts (k : BitVec 7) (s : State) : Result := branchIf (s.flag flagT) k s

/-- `BRTC k` (R194). -/
def execBrtc (k : BitVec 7) (s : State) : Result := branchIf (!s.flag flagT) k s

/-- `BRVS k` (R195). -/
def execBrvs (k : BitVec 7) (s : State) : Result := branchIf (s.flag flagV) k s

/-- `BRVC k` (R196). -/
def execBrvc (k : BitVec 7) (s : State) : Result := branchIf (!s.flag flagV) k s

/-- `BRIE k` (R197). -/
def execBrie (k : BitVec 7) (s : State) : Result := branchIf (s.flag flagI) k s

/-- `BRID k` (R198). -/
def execBrid (k : BitVec 7) (s : State) : Result := branchIf (!s.flag flagI) k s

end Sys2Proof.Machine
end

