-- ==== Sys2Proof/Machine/Control.lean ====
section
/-! DEFINITION. The meanings of group T3, microcontroller control (spec/42_mcu_control.md R210, R211). -/

namespace Sys2Proof.Machine

/-- `NOP` (R210). -/
def execNop (s : State) : Result := .next (s.advance 1 1)

/-- `SLEEP` (R211): a no-operation unless the platform enables sleep. -/
def execSleep (s : State) : Result :=
  .next ((if s.pins.sleepEnabled then s.setAsleep true else s).advance 1 1)

end Sys2Proof.Machine
end

