-- ==== Sys2Proof/Machine/Transfer.lean ====
section
/-! DEFINITION. The meanings of group T4, data transfer (spec/43_data_transfer.md R218 to R255), over the operand
forms of Machine/Operands.lean. -/

namespace Sys2Proof.Machine

/-! ### Register moves -/

/-- `MOV Rd, Rr` (R218). -/
def execMov (d r : Reg) (s : State) : Result := .next ((s.setReg d (s.reg r)).advance 1 1)

/-- `MOVW Rd, Rr` (R219). -/
def execMovw (d r : Reg) (s : State) : Result := .next ((s.setPair d (s.pair r)).advance 1 1)

/-- `LDI Rd, K` (R220). No flag. -/
def execLdi (d : Reg) (k : Byte) (s : State) : Result := .next ((s.setReg d k).advance 1 1)

/-! ### Loads from data space -/

/-- `LD Rd, X` (R221). -/
def execLdX (d : Reg) (s : State) : Result := loadPtr .x d s

/-- `LD Rd, X+` (R222). -/
def execLdXInc (d : Reg) (s : State) : Result := loadInc .x d s

/-- `LD Rd, -X` (R223). -/
def execLdXDec (d : Reg) (s : State) : Result := loadDec .x d s

/-- `LD Rd, Y` (R224). -/
def execLdY (d : Reg) (s : State) : Result := loadPtr .y d s

/-- `LD Rd, Y+` (R225). -/
def execLdYInc (d : Reg) (s : State) : Result := loadInc .y d s

/-- `LD Rd, -Y` (R226). -/
def execLdYDec (d : Reg) (s : State) : Result := loadDec .y d s

/-- `LDD Rd, Y+q` (R227). -/
def execLddY (d : Reg) (q : BitVec 6) (s : State) : Result := loadDisp .y d q s

/-- `LD Rd, Z` (R228). -/
def execLdZ (d : Reg) (s : State) : Result := loadPtr .z d s

/-- `LD Rd, Z+` (R229). -/
def execLdZInc (d : Reg) (s : State) : Result := loadInc .z d s

/-- `LD Rd, -Z` (R230). -/
def execLdZDec (d : Reg) (s : State) : Result := loadDec .z d s

/-- `LDD Rd, Z+q` (R231). -/
def execLddZ (d : Reg) (q : BitVec 6) (s : State) : Result := loadDisp .z d q s

/-- `LDS Rd, k` (R232), two words. -/
def execLds (d : Reg) (k : Word) (s : State) : Result := loadPlain 2 2 d k s

/-! ### Stores to data space -/

/-- `ST X, Rr` (R233). -/
def execStX (r : Reg) (s : State) : Result := storePtr .x r s

/-- `ST X+, Rr` (R234). -/
def execStXInc (r : Reg) (s : State) : Result := storeInc .x r s

/-- `ST -X, Rr` (R235). -/
def execStXDec (r : Reg) (s : State) : Result := storeDec .x r s

/-- `ST Y, Rr` (R236). -/
def execStY (r : Reg) (s : State) : Result := storePtr .y r s

/-- `ST Y+, Rr` (R237). -/
def execStYInc (r : Reg) (s : State) : Result := storeInc .y r s

/-- `ST -Y, Rr` (R238). -/
def execStYDec (r : Reg) (s : State) : Result := storeDec .y r s

/-- `STD Y+q, Rr` (R239). -/
def execStdY (q : BitVec 6) (r : Reg) (s : State) : Result := storeDisp .y q r s

/-- `ST Z, Rr` (R240). -/
def execStZ (r : Reg) (s : State) : Result := storePtr .z r s

/-- `ST Z+, Rr` (R241). -/
def execStZInc (r : Reg) (s : State) : Result := storeInc .z r s

/-- `ST -Z, Rr` (R242). -/
def execStZDec (r : Reg) (s : State) : Result := storeDec .z r s

/-- `STD Z+q, Rr` (R243). -/
def execStdZ (q : BitVec 6) (r : Reg) (s : State) : Result := storeDisp .z q r s

/-- `STS k, Rr` (R244), two words. -/
def execSts (k : Word) (r : Reg) (s : State) : Result := storePlain 2 2 r k s

/-! ### Loads from program memory -/

/-- `LPM` (R245). -/
def execLpmR0 (s : State) : Result := loadProg 0 (lpmAddr s) s

/-- `LPM Rd, Z` (R246). -/
def execLpm (d : Reg) (s : State) : Result := loadProg d (lpmAddr s) s

/-- `LPM Rd, Z+` (R247). -/
def execLpmInc (d : Reg) (s : State) : Result := lpmIncrement d s

/-- `ELPM` (R248). -/
def execElpmR0 (s : State) : Result := loadProg 0 (elpmAddr s) s

/-- `ELPM Rd, Z` (R249). -/
def execElpm (d : Reg) (s : State) : Result := loadProg d (elpmAddr s) s

/-- `ELPM Rd, Z+` (R250). -/
def execElpmInc (d : Reg) (s : State) : Result := elpmIncrement d s

/-- `SPM` (R251): the spec gives it no meaning, since its self-programming mechanism is not in the source (log 23). -/
def execSpm (_s : State) : Result := .refused .spmMechanismNotInSource

/-! ### I/O space -/

/-- `IN Rd, P` (R252). -/
def execInp (d : Reg) (a : BitVec 6) (s : State) : Result := loadPlain 1 1 d (ioAddr a) s

/-- `OUT P, Rr` (R253). -/
def execOut (a : BitVec 6) (r : Reg) (s : State) : Result := storePlain 1 1 r (ioAddr a) s

/-! ### Stack -/

/-- `PUSH Rr` (R254). -/
def execPush (r : Reg) (s : State) : Result :=
  settle ((push8 (s.reg r) s).map (fun t => t.advance 1 2))

/-- `POP Rd` (R255). -/
def execPop (d : Reg) (s : State) : Result :=
  match pop8 s with
  | .error f => .fault f
  | .ok (v, t) => .next ((t.setReg d v).advance 1 2)

end Sys2Proof.Machine
end

