-- ==== Sys2Proof/Machine/Run.lean ====
section
/-! DEFINITION. Fetching, running one instruction, and the order of the checks at an instruction boundary
(spec/60_exceptions.md R328). Machine/Step.lean calls it. -/

namespace Sys2Proof.Machine

/-- The words at `pc` and `pc + 1` (modulo 2^16), as far as program memory has them
(spec/20_memory.md R65, R73). -/
def fetchWords (s : State) : List Word :=
  match s.progWord s.pc with
  | none => []
  | some w =>
    match s.progWord (s.pc + 1) with
    | none => [w]
    | some k => [w, k]

/-- Step 4 of R328: fetch, decode, execute. The latch is cleared first, which no instruction can tell from
clearing it last, since none reads it; an instruction that sets it sets it after that (spec/10_state.md R45). -/
def runInstr (s : State) : Result :=
  match decode (fetchWords s) with
  | .ok (i, _) => exec i (s.setInhibit false)
  | .error (.reserved w) => .refused (.reservedEncoding w)
  | .error .noWord => .fault (.unmappedProgram (2 * s.pc.toNat))
  | .error (.noSecondWord _) => .fault (.unmappedProgram (2 * (s.pc + 1).toNat))

/-- Steps 1 to 4 of R328, once the lines have their values: reset, else asleep, else an acceptable interrupt, else
the instruction at `pc`. -/
def boundary (s : State) : Result :=
  if s.pins.reset then .next (resetEvent s)
  else if s.asleep then
    if s.flag flagI then
      match s.pending with
      | some n => enterInterrupt n s
      | none => .next s
    else .next s
  else if s.flag flagI then
    match s.pending with
    | some n => if s.inhibit then runInstr s else enterInterrupt n s
    | none => runInstr s
  else runInstr s

/-- The platform sets its lines, then the boundary (log 11). -/
def runStep (s : State) : Result := boundary s.sample

/-- Writes bytes of program memory from byte address `a` up, modulo 2^17 (the word addresses are modulo 2^16). -/
def placeBytes (a : Nat) (bs : List Byte) (s : State) : State :=
  match bs with
  | [] => s
  | v :: rest =>
    placeBytes (a + 1) rest
      (s.setFlash (Memory.write (some flashBlank) s.flash (a % 131072) v))

end Sys2Proof.Machine
end

