-- ==== Sys2Proof/Machine/Step.lean ====
section
/-! DEFINITION. The one step of the machine (spec/60_exceptions.md R328), and the placing of an instruction where the
next step fetches. -/

namespace Sys2Proof.Machine

/-- One step. -/
def step (s : State) : Host.Outcome State Fault Refusal := runStep s

/-- `s` with the instruction of `nbits` bits `w` (numbered as spec/opcode_table.json numbers them) in program memory
at `pc`; its second word, or zeros, at `pc + 1` (log 8). -/
def State.withFetchWord (s : State) (nbits w : Nat) : State :=
  placeBytes (2 * s.pc.toNat) (tableBytes nbits w) s

end Sys2Proof.Machine
end

