-- ==== Sys2Proof/Safety.lean ====
section
/-! DEFINITION. What counts as a safe run, and the terms the statements use: the invariant of the state, how a step can
end, what an instruction leaves unchanged, what a load and a store of data space do, and the flags of the arithmetic
rules as exact arithmetic. -/

namespace Sys2Proof.Machine

/-! ### The invariant -/

/-- The listed bytes of data memory lie where the map has memory (spec/20_memory.md R70). -/
def State.ramInMap (s : State) : Prop :=
  ∀ c ∈ s.ram, c.1 < 65536 ∧ region s.par (BitVec.ofNat 16 c.1) = .memory

/-- The invariant: both memories in canonical form, data memory listed only where the map has memory, no
unimplemented bit of RAMPZ (spec/10_state.md R34), the latch on only while I is (R45), and off while the core is asleep
(spec/60_exceptions.md R326). -/
structure State.Inv (s : State) : Prop where
  ramWf : Memory.wf ramBlank s.ram
  flashWf : Memory.wf (some flashBlank) s.flash
  ramMapped : s.ramInMap
  rampzBits : s.rampz &&& rampzMask s.par = s.rampz
  inhibitNeedsI : s.inhibit = true → s.flag flagI = true
  asleepNotInhibited : s.asleep = true → s.inhibit = false

/-! ### How a step ends -/

/-- The step completes. -/
def State.Goes (s : State) : Prop := ∃ t, step s = .next t

/-- The step is stuck (spec/70_reset_and_hazards.md R347, second row). -/
def State.Stuck (s : State) : Prop := ∃ f, step s = .fault f

/-- The step is refused (R347, first row). -/
def State.Refused (s : State) : Prop := ∃ r, step s = .refused r

/-- `s` has a run of `n` steps, each of which completes. -/
def State.safeFor (n : Nat) (s : State) : Prop :=
  match n with
  | 0 => True
  | k + 1 => ∃ t, step s = .next t ∧ t.safeFor k

/-- The next boundary runs the instruction at `pc`: no reset, not asleep, no acceptable interrupt
(spec/60_exceptions.md R328, step 4). -/
def State.RunsInstruction (s : State) : Prop :=
  s.sample.pins.reset = false ∧ s.asleep = false ∧
    (s.flag flagI = false ∨ s.sample.pending = none ∨ s.inhibit = true)

/-! ### What is left unchanged -/

/-- Every general register outside `ds` keeps its value. -/
def KeepsRegs (ds : List Reg) (s t : State) : Prop := ∀ i : Reg, i ∉ ds → t.reg i = s.reg i

/-- Every bit of SREG outside `ns` keeps its value. -/
def KeepsFlags (ns : List BitNo) (s t : State) : Prop := ∀ n : BitNo, n ∉ ns → t.flag n = s.flag n

/-- Every byte of data memory reads as before. -/
def KeepsMemory (s t : State) : Prop := ∀ a : Nat, t.ramByte a = s.ramByte a

/-- SP, RAMPZ, the latch and the sleep bit are as before. -/
def KeepsControl (s t : State) : Prop :=
  t.sp = s.sp ∧ t.rampz = s.rampz ∧ t.inhibit = s.inhibit ∧ t.asleep = s.asleep

/-- Program memory, the parameters, the platform's side and the model's counters but `cycles` are as before. -/
def KeepsPlatform (s t : State) : Prop :=
  (∀ a : Nat, t.flashByte a = s.flashByte a) ∧ t.par = s.par ∧ t.pins = s.pins ∧ t.inputs = s.inputs ∧
    t.devIn = s.devIn ∧ t.trace = s.trace ∧ t.freeCount = s.freeCount ∧ t.resets = s.resets

/-- From `s` to `t` only the registers `ds`, the SREG bits `ns`, pc (by `len` words) and the cycle total (by `cyc`)
may differ. -/
structure OnlyRegsFlags (ds : List Reg) (ns : List BitNo) (len cyc : Nat) (s t : State) : Prop where
  regs : KeepsRegs ds s t
  flags : KeepsFlags ns s t
  memory : KeepsMemory s t
  control : KeepsControl s t
  platform : KeepsPlatform s t
  pc : t.pc.toNat = (s.pc.toNat + len) % 65536
  cycles : t.cycles = s.cycles + cyc

/-- From `s` to `t` only pc, which becomes `target`, and the cycle total (by `cyc`) differ. -/
structure OnlyJumps (target : Word) (cyc : Nat) (s t : State) : Prop where
  regs : KeepsRegs [] s t
  flags : KeepsFlags [] s t
  memory : KeepsMemory s t
  control : KeepsControl s t
  platform : KeepsPlatform s t
  pc : t.pc = target
  cycles : t.cycles = s.cycles + cyc

/-! ### Data space (spec/20_memory.md R69, R70, R72) -/

/-- Reading the byte at data address `a` in `s` gives `v` and leaves `u`. Only the read of a device location leaves
anything behind. -/
structure Loads (a : Word) (s : State) (v : Byte) (u : State) : Prop where
  register : ∀ i : Reg, a.toNat = i.val → v = s.reg i
  rampz : a = 0x5B → v = s.rampz &&& rampzMask s.par
  spl : a = 0x5D → v = lowByte s.sp
  sph : a = 0x5E → v = highByte s.sp
  sreg : a = 0x5F → v = s.sreg
  memory : region s.par a = .memory → v = s.ramByte a.toNat
  device : region s.par a = .device →
    v = deviceAnswer a s ∧ u = { s with devIn := s.devIn.tail, trace := .devRead a v :: s.trace }
  quiet : region s.par a ≠ .device → u = s

/-- Writing `v` at data address `a` in `s` leaves `u`: the one location written, and nothing else. A write of SREG that
turns I on leaves the latch open (spec/10_state.md R45). -/
structure Stores (a : Word) (v : Byte) (s u : State) : Prop where
  regs : ∀ i : Reg, u.reg i = if a.toNat = i.val then v else s.reg i
  rampz : u.rampz = if a = 0x5B then v &&& rampzMask s.par else s.rampz
  sp : u.sp = if a = 0x5D then joinBytes (highByte s.sp) v
    else if a = 0x5E then joinBytes v (lowByte s.sp) else s.sp
  sreg : u.sreg = if a = 0x5F then v else s.sreg
  memory : ∀ b : Nat, u.ramByte b = if region s.par a = .memory ∧ b = a.toNat then v else s.ramByte b
  trace : u.trace = if region s.par a = .device then .devWrite a v :: s.trace else s.trace
  latch : ¬ (a = 0x5F ∧ bitOf v flagI = true ∧ s.flag flagI = false) →
    u.inhibit = s.inhibit ∧ u.freeCount = s.freeCount
  pc : u.pc = s.pc
  asleep : u.asleep = s.asleep
  flash : ∀ b : Nat, u.flashByte b = s.flashByte b
  par : u.par = s.par
  lines : u.pins = s.pins ∧ u.inputs = s.inputs ∧ u.devIn = s.devIn
  counters : u.resets = s.resets ∧ u.cycles = s.cycles

/-- A stack byte may be at `a`: something is mapped there, and it is neither half of SP. -/
def StackByte (s : State) (a : Word) : Prop := region s.par a ≠ .unmapped ∧ a ≠ 0x5D ∧ a ≠ 0x5E

/-- `s` with the return address `ret` on the stack: its low byte stored at SP, its high byte at SP - 1, SP two lower
(spec/10_state.md R36). -/
def Pushes (ret : Word) (s w : State) : Prop :=
  ∃ u v, Stores s.sp (lowByte ret) s u ∧ Stores (s.sp - 1) (highByte ret) u v ∧
    w = { v with sp := s.sp - 2 }

/-! ### Flags as exact arithmetic (spec/40_arithmetic_logic.md) -/

/-- The flags of `a + b + c` in `t` (R121). -/
structure SumFlags (a b : Byte) (c : Bool) (t : State) : Prop where
  half : t.flag flagH = decide (16 ≤ a.toNat % 16 + b.toNat % 16 + c.toNat)
  carry : t.flag flagC = decide (256 ≤ a.toNat + b.toNat + c.toNat)
  overflow : t.flag flagV =
    decide (a.toInt + b.toInt + c.toNat < -128 ∨ 127 < a.toInt + b.toInt + c.toNat)
  negative : t.flag flagN = decide (128 ≤ (a.toNat + b.toNat + c.toNat) % 256)
  zero : t.flag flagZ = decide ((a.toNat + b.toNat + c.toNat) % 256 = 0)
  sign : t.flag flagS = (t.flag flagN != t.flag flagV)

/-- The exact difference `a - b - c` of unsigned values. -/
def exactDiff (a b : Byte) (c : Bool) : Int := (a.toNat : Int) - b.toNat - c.toNat

/-- The flags of `a - b - c` in `t`, all but Z (R122). -/
structure DiffFlags (a b : Byte) (c : Bool) (t : State) : Prop where
  half : t.flag flagH = decide (a.toNat % 16 < b.toNat % 16 + c.toNat)
  borrow : t.flag flagC = decide (a.toNat < b.toNat + c.toNat)
  overflow : t.flag flagV =
    decide (a.toInt - b.toInt - c.toNat < -128 ∨ 127 < a.toInt - b.toInt - c.toNat)
  negative : t.flag flagN = decide (128 ≤ exactDiff a b c % 256)
  sign : t.flag flagS = (t.flag flagN != t.flag flagV)

/-- The flags of a logic operation with result `r` in `t` (R123). -/
structure LogicFlags (r : Byte) (t : State) : Prop where
  overflow : t.flag flagV = false
  negative : t.flag flagN = decide (128 ≤ r.toNat)
  zero : t.flag flagZ = decide (r.toNat = 0)
  sign : t.flag flagS = (t.flag flagN != t.flag flagV)

/-- The flags of a shift with result `r` and bit shifted out `c` in `t` (spec/44_bit_and_bit_test.md R265). -/
structure ShiftFlags (r : Byte) (c : Bool) (t : State) : Prop where
  carry : t.flag flagC = c
  negative : t.flag flagN = decide (128 ≤ r.toNat)
  zero : t.flag flagZ = decide (r.toNat = 0)
  overflow : t.flag flagV = (t.flag flagN != t.flag flagC)
  sign : t.flag flagS = (t.flag flagN != t.flag flagV)

/-- H, S, V, N, Z, C. -/
def sixFlags : List BitNo := [flagC, flagZ, flagN, flagV, flagS, flagH]

/-- S, V, N, Z, C. -/
def fiveFlags : List BitNo := [flagC, flagZ, flagN, flagV, flagS]

/-- S, V, N, Z. -/
def fourFlags : List BitNo := [flagZ, flagN, flagV, flagS]

/-- `n` times the instruction `i` after one another, from `s` to `t`. -/
def Repeats (i : Instr) (n : Nat) (s t : State) : Prop :=
  match n with
  | 0 => t = s
  | k + 1 => ∃ u, exec i s = .next u ∧ Repeats i k u t

/-! ### The rows' cells (spec/95_test_vectors.md section 1.2) -/

/-- What a row of the source's table says an instruction may change. -/
structure RowCells where
  /-- The general registers the action cell writes, a pointer it moves among them. -/
  dests : List Reg
  /-- The flags cell, with S where N and V are named and H for LSL and ROL. -/
  flags : List BitNo
  /-- The data addresses it stores to, from the state before it: by ST, STD and STS (spec/43_data_transfer.md R215), by
  OUT, SBI and CBI (spec/00_scope.md R11), by PUSH and the calls (spec/10_state.md R36). Anything of the map may lie
  there. -/
  stores : State → List Word
  /-- Its action writes PC. -/
  transfers : Bool

/-- A row that stores to no data address. -/
def atNone (_ : State) : List Word := []

/-- The cells of each row. -/
def rowCells (i : Instr) : RowCells :=
  match i with
  | .add d _ => ⟨[d], sixFlags, atNone, false⟩
  | .adc d _ => ⟨[d], sixFlags, atNone, false⟩
  | .adiw d _ => ⟨[d, d + 1], fiveFlags, atNone, false⟩
  | .sub d _ => ⟨[d], sixFlags, atNone, false⟩
  | .subi d _ => ⟨[d], sixFlags, atNone, false⟩
  | .sbc d _ => ⟨[d], sixFlags, atNone, false⟩
  | .sbci d _ => ⟨[d], sixFlags, atNone, false⟩
  | .sbiw d _ => ⟨[d, d + 1], fiveFlags, atNone, false⟩
  | .and d _ => ⟨[d], fourFlags, atNone, false⟩
  | .andi d _ => ⟨[d], fourFlags, atNone, false⟩
  | .or d _ => ⟨[d], fourFlags, atNone, false⟩
  | .ori d _ => ⟨[d], fourFlags, atNone, false⟩
  | .eor d _ => ⟨[d], fourFlags, atNone, false⟩
  | .com d => ⟨[d], fiveFlags, atNone, false⟩
  | .neg d => ⟨[d], sixFlags, atNone, false⟩
  | .sbr d _ => ⟨[d], fourFlags, atNone, false⟩
  | .cbr d _ => ⟨[d], fourFlags, atNone, false⟩
  | .inc d => ⟨[d], fourFlags, atNone, false⟩
  | .dec d => ⟨[d], fourFlags, atNone, false⟩
  | .tst d => ⟨[d], fourFlags, atNone, false⟩
  | .clr d => ⟨[d], fourFlags, atNone, false⟩
  | .ser d => ⟨[d], [], atNone, false⟩
  | .mul _ _ => ⟨[0, 1], [flagZ, flagC], atNone, false⟩
  | .muls _ _ => ⟨[0, 1], [flagZ, flagC], atNone, false⟩
  | .mulsu _ _ => ⟨[0, 1], [flagZ, flagC], atNone, false⟩
  | .fmul _ _ => ⟨[0, 1], [flagZ, flagC], atNone, false⟩
  | .fmuls _ _ => ⟨[0, 1], [flagZ, flagC], atNone, false⟩
  | .fmulsu _ _ => ⟨[0, 1], [flagZ, flagC], atNone, false⟩
  | .rjmp _ => ⟨[], [], atNone, true⟩
  | .ijmp => ⟨[], [], atNone, true⟩
  | .jmp _ => ⟨[], [], atNone, true⟩
  | .rcall _ => ⟨[], [], fun s => [s.sp, s.sp - 1], true⟩
  | .icall => ⟨[], [], fun s => [s.sp, s.sp - 1], true⟩
  | .call _ => ⟨[], [], fun s => [s.sp, s.sp - 1], true⟩
  | .ret => ⟨[], [], atNone, true⟩
  | .reti => ⟨[], [flagI], atNone, true⟩
  | .cpse _ _ => ⟨[], [], atNone, true⟩
  | .cp _ _ => ⟨[], sixFlags, atNone, false⟩
  | .cpc _ _ => ⟨[], sixFlags, atNone, false⟩
  | .cpi _ _ => ⟨[], sixFlags, atNone, false⟩
  | .sbrc _ _ => ⟨[], [], atNone, true⟩
  | .sbrs _ _ => ⟨[], [], atNone, true⟩
  | .sbic _ _ => ⟨[], [], atNone, true⟩
  | .sbis _ _ => ⟨[], [], atNone, true⟩
  | .brbs _ _ => ⟨[], [], atNone, true⟩
  | .brbc _ _ => ⟨[], [], atNone, true⟩
  | .breq _ => ⟨[], [], atNone, true⟩
  | .brne _ => ⟨[], [], atNone, true⟩
  | .brcs _ => ⟨[], [], atNone, true⟩
  | .brcc _ => ⟨[], [], atNone, true⟩
  | .brsh _ => ⟨[], [], atNone, true⟩
  | .brlo _ => ⟨[], [], atNone, true⟩
  | .brmi _ => ⟨[], [], atNone, true⟩
  | .brpl _ => ⟨[], [], atNone, true⟩
  | .brge _ => ⟨[], [], atNone, true⟩
  | .brlt _ => ⟨[], [], atNone, true⟩
  | .brhs _ => ⟨[], [], atNone, true⟩
  | .brhc _ => ⟨[], [], atNone, true⟩
  | .brts _ => ⟨[], [], atNone, true⟩
  | .brtc _ => ⟨[], [], atNone, true⟩
  | .brvs _ => ⟨[], [], atNone, true⟩
  | .brvc _ => ⟨[], [], atNone, true⟩
  | .brie _ => ⟨[], [], atNone, true⟩
  | .brid _ => ⟨[], [], atNone, true⟩
  | .nop => ⟨[], [], atNone, false⟩
  | .sleep => ⟨[], [], atNone, false⟩
  | .mov d _ => ⟨[d], [], atNone, false⟩
  | .movw d _ => ⟨[d, d + 1], [], atNone, false⟩
  | .ldi d _ => ⟨[d], [], atNone, false⟩
  | .ldX d => ⟨[d], [], atNone, false⟩
  | .ldXInc d => ⟨[d, 26, 27], [], atNone, false⟩
  | .ldXDec d => ⟨[d, 26, 27], [], atNone, false⟩
  | .ldY d => ⟨[d], [], atNone, false⟩
  | .ldYInc d => ⟨[d, 28, 29], [], atNone, false⟩
  | .ldYDec d => ⟨[d, 28, 29], [], atNone, false⟩
  | .lddY d _ => ⟨[d], [], atNone, false⟩
  | .ldZ d => ⟨[d], [], atNone, false⟩
  | .ldZInc d => ⟨[d, 30, 31], [], atNone, false⟩
  | .ldZDec d => ⟨[d, 30, 31], [], atNone, false⟩
  | .lddZ d _ => ⟨[d], [], atNone, false⟩
  | .lds d _ => ⟨[d], [], atNone, false⟩
  | .stX _ => ⟨[], [], fun s => [s.ptr .x], false⟩
  | .stXInc _ => ⟨[26, 27], [], fun s => [s.ptr .x], false⟩
  | .stXDec _ => ⟨[26, 27], [], fun s => [s.ptr .x - 1], false⟩
  | .stY _ => ⟨[], [], fun s => [s.ptr .y], false⟩
  | .stYInc _ => ⟨[28, 29], [], fun s => [s.ptr .y], false⟩
  | .stYDec _ => ⟨[28, 29], [], fun s => [s.ptr .y - 1], false⟩
  | .stdY q _ => ⟨[], [], fun s => [dispAddr .y q s], false⟩
  | .stZ _ => ⟨[], [], fun s => [s.ptr .z], false⟩
  | .stZInc _ => ⟨[30, 31], [], fun s => [s.ptr .z], false⟩
  | .stZDec _ => ⟨[30, 31], [], fun s => [s.ptr .z - 1], false⟩
  | .stdZ q _ => ⟨[], [], fun s => [dispAddr .z q s], false⟩
  | .sts k _ => ⟨[], [], fun _ => [k], false⟩
  | .lpmR0 => ⟨[0], [], atNone, false⟩
  | .lpm d => ⟨[d], [], atNone, false⟩
  | .lpmInc d => ⟨[d, 30, 31], [], atNone, false⟩
  | .elpmR0 => ⟨[0], [], atNone, false⟩
  | .elpm d => ⟨[d], [], atNone, false⟩
  | .elpmInc d => ⟨[d, 30, 31], [], atNone, false⟩
  | .spm => ⟨[], [], atNone, false⟩
  | .inp d _ => ⟨[d], [], atNone, false⟩
  | .out a _ => ⟨[], [], fun _ => [ioAddr a], false⟩
  | .push _ => ⟨[], [], fun s => [s.sp], false⟩
  | .pop d => ⟨[d], [], atNone, false⟩
  | .sbi a _ => ⟨[], [], fun _ => [ioBitAddr a], false⟩
  | .cbi a _ => ⟨[], [], fun _ => [ioBitAddr a], false⟩
  | .lsl d => ⟨[d], sixFlags, atNone, false⟩
  | .lsr d => ⟨[d], fiveFlags, atNone, false⟩
  | .rol d => ⟨[d], sixFlags, atNone, false⟩
  | .ror d => ⟨[d], fiveFlags, atNone, false⟩
  | .asr d => ⟨[d], fiveFlags, atNone, false⟩
  | .swap d => ⟨[d], [], atNone, false⟩
  | .bset sb => ⟨[], [sb], atNone, false⟩
  | .bclr sb => ⟨[], [sb], atNone, false⟩
  | .bst _ _ => ⟨[], [flagT], atNone, false⟩
  | .bld d _ => ⟨[d], [], atNone, false⟩
  | .sec => ⟨[], [flagC], atNone, false⟩
  | .clc => ⟨[], [flagC], atNone, false⟩
  | .sen => ⟨[], [flagN], atNone, false⟩
  | .cln => ⟨[], [flagN], atNone, false⟩
  | .sez => ⟨[], [flagZ], atNone, false⟩
  | .clz => ⟨[], [flagZ], atNone, false⟩
  | .sei => ⟨[], [flagI], atNone, false⟩
  | .cli => ⟨[], [flagI], atNone, false⟩
  | .ses => ⟨[], [flagS], atNone, false⟩
  | .cls => ⟨[], [flagS], atNone, false⟩
  | .sev => ⟨[], [flagV], atNone, false⟩
  | .clv => ⟨[], [flagV], atNone, false⟩
  | .set => ⟨[], [flagT], atNone, false⟩
  | .clt => ⟨[], [flagT], atNone, false⟩
  | .seh => ⟨[], [flagH], atNone, false⟩
  | .clh => ⟨[], [flagH], atNone, false⟩

end Sys2Proof.Machine
end

