-- ==== Sys2Proof/Certificates/Slice0/Obligations.lean ====
section
/-! DEFINITION. The statements for the provers. OBLIGATIONS.json lists them with the rules of spec/ they formalise; the
terms they use are those of Safety.lean. Where a statement says "there is a next state t", that is the completion of the
instruction's own effect. The fields `cycles`, `freeCount`, `devIn` and `trace` are the model's own bookkeeping (log 14,
log 12, log 10): clauses about them are the model's choice. -/

open Sys2Proof Sys2Proof.Machine

/-! ### Encoding -/

/-- Every well-formed instruction's words decode to it (to the parent, for an alias), whatever words follow. -/
def Obligations.DecodeOfEncode : Prop :=
  ∀ (i : Instr) (rest : List Word), wellFormed i = true →
    decode (encode i ++ rest) = .ok (canonical i, rest)

/-- What decodes is well formed, is no alias, and is encoded by the very words it was read from. -/
def Obligations.EncodeOfDecode : Prop :=
  ∀ (ws rest : List Word) (i : Instr), decode ws = .ok (i, rest) →
    wellFormed i = true ∧ canonical i = i ∧ encode i ++ rest = ws

/-- At most one primary row selects a word. -/
def Obligations.OpcodeRowsDisjoint : Prop :=
  ∀ w : Word, (opcodeTable.filter (fun r => r.selects w)).length ≤ 1

/-- The first word alone tells the length, and the two-word instructions are JMP, CALL, LDS and STS. -/
def Obligations.FirstWordTellsLength : Prop :=
  ∀ (i : Instr) (w : Word) (ws : List Word), wellFormed i = true → encode i = w :: ws →
    ws.length = (if isTwoWord w then 1 else 0) ∧
    (isTwoWord w = true ↔
      (∃ k, i = .jmp k) ∨ (∃ k, i = .call k) ∨ (∃ d k, i = .lds d k) ∨ (∃ k r, i = .sts k r))

/-- Words of the rules' examples decode to the instructions they stand for. -/
def Obligations.ExampleWordsDecode : Prop :=
  decode [0x0F01] = .ok (.add 16 17, []) ∧
  decode [0x9760] = .ok (.sbiw 28 16, []) ∧
  decode [0xF7E0] = .ok (.brbc 0 (-4), []) ∧
  decode [0x940E, 0x0200] = .ok (.call 0x0200, []) ∧
  decode [0x9588] = .ok (.sleep, []) ∧
  decode [0xAC6F] = .ok (.lddY 6 63, []) ∧
  decode [0x9300, 0x0300] = .ok (.sts 0x0300 16, []) ∧
  decode [0x9AC3] = .ok (.sbi 0x18 3, [])

/-- A reserved word at pc is refused, whatever the rest of the state (the refusal is log 22). -/
def Obligations.ReservedWordRefused : Prop :=
  ∀ (s : State) (w : Word), s.RunsInstruction → s.progWord s.pc = some w →
    (∀ r ∈ opcodeTable, r.selects w = false) → step s = .refused (.reservedEncoding w)

/-! ### The step -/

/-- Where the next boundary runs an instruction, the step samples the lines, clears the latch and runs the instruction
that the words at pc (pc + 1, for the second word) decode to. How the lines arrive is the model's choice (log 11). R312
and R328 clear the latch after an instruction that does not set it: clearing it before is the model's order, which no
instruction can tell (log 28). That the word after 0xFFFF is the word at 0x0000 is inferred (log 25). -/
def Obligations.StepRunsDecodedInstruction : Prop :=
  ∀ (s : State) (i : Instr) (rest : List Word), s.RunsInstruction →
    decode (fetchWords s) = .ok (i, rest) → step s = exec i (s.sample.setInhibit false)

/-- An acceptable interrupt is taken instead of an instruction: the lowest requesting vector, the return address
stacked, I cleared, the core awake, the latch off, the platform told, pc at the vector, and nothing else changed. It is
taken from sleep whatever the latch. A stack on SPL, SPH or SREG is left out (log 19, log 20). -/
def Obligations.InterruptEntry : Prop :=
  ∀ (s : State) (n : Nat), s.sample.pins.reset = false → s.flag flagI = true →
    (s.asleep = true ∨ s.inhibit = false) →
    n ∈ s.sample.pins.irq → 1 ≤ n → n < s.par.nVectors →
    (∀ m ∈ s.sample.pins.irq, 1 ≤ m → m < s.par.nVectors → n ≤ m) →
    StackByte s s.sp → StackByte s (s.sp - 1) → s.sp ≠ 0x5F → s.sp - 1 ≠ 0x5F →
    ∃ w, Pushes s.pc s.sample w ∧
      step s = .next { w with
        sreg := w.sreg &&& 0x7F
        asleep := false
        inhibit := false
        trace := .irqAck n :: w.trace
        pc := BitVec.ofNat 16 (s.par.vectorBase + n * s.par.vectorStride)
        cycles := w.cycles + 4 }

/-- SEI with I clear, or RETI, with a request pending throughout: the one instruction that follows runs, whatever it is,
and the interrupt is taken after it, not before it. That instruction completes, leaves I set and is not itself SEI or
RETI, which hold off once more (RETI) or leave the latch open (SEI with I set, log 24). `BSET 7` is what SEI's word decodes
to (log 15). The lines stay as they are (log 11). -/
def Obligations.SeiHoldsOffOneInstruction : Prop :=
  ∀ (s t u : State) (i j : Instr) (rest rest' : List Word) (n : Nat),
    s.inputs = [] → s.RunsInstruction → s.pending = some n →
    decode (fetchWords s) = .ok (i, rest) → (i = .bset flagI ∧ s.flag flagI = false ∨ i = .reti) →
    exec i (s.setInhibit false) = .next t →
    decode (fetchWords t) = .ok (j, rest') → j ≠ .bset flagI → j ≠ .reti →
    exec j (t.setInhibit false) = .next u → u.flag flagI = true →
    StackByte u u.sp → StackByte u (u.sp - 1) →
    step s = .next t ∧ step t = .next u ∧
      ∃ v, step u = .next v ∧ v.pc = vectorAddress s.par n ∧ v.sp = u.sp - 2 ∧
        v.trace.head? = some (.irqAck n)

/-- Reset wins over everything at a boundary and leaves the state of R331; the registers and data memory are then
unspecified (the model's free values, log 13), program memory and the parameters as they were. -/
def Obligations.ResetEvent : Prop :=
  ∀ s : State, s.sample.pins.reset = true →
    ∃ t, step s = .next t ∧ t.pc = s.par.resetVector ∧ t.sreg = 0 ∧ t.sp = s.par.spReset ∧ t.rampz = 0 ∧
      t.inhibit = false ∧ t.asleep = false ∧ t.par = s.par ∧ (∀ a, t.flashByte a = s.flashByte a) ∧
      (∀ i, t.reg i = Config.regAtReset (s.resets + 1) i) ∧
      (∀ a, t.ramByte a = Config.ramAtReset (s.resets + 1) a)

/-- Asleep, with no reset and no interrupt it can take, the core changes nothing: no instruction is fetched. -/
def Obligations.AsleepWaits : Prop :=
  ∀ s : State, s.sample.pins.reset = false → s.asleep = true →
    (s.flag flagI = false ∨ s.sample.pending = none) → step s = .next s.sample

/-- The state after reset satisfies the invariant. The memories' canonical form is the model's choice (log 6, log 7). -/
def Obligations.ResetStateInvariant : Prop := State.reset.Inv

/-- Every step that completes keeps the invariant, from every state that satisfies it. The memories' canonical form is
the model's choice (log 6, log 7). -/
def Obligations.StepKeepsInvariant : Prop := ∀ s t : State, s.Inv → step s = .next t → t.Inv

/-- No step changes program memory or the device's parameters. -/
def Obligations.ProgramMemoryConstant : Prop :=
  ∀ s t : State, step s = .next t → (∀ a, t.flashByte a = s.flashByte a) ∧ t.par = s.par

/-- `RJMP -1` with interrupts off is a fixed point of the step, but for the cycle total and the latch. -/
def Obligations.EndOfRunFixedPoint : Prop :=
  ∀ s : State, s.inputs = [] → s.pins.reset = false → s.asleep = false → s.flag flagI = false →
    s.progWord s.pc = some 0xCFFF →
    step s = .next { s with inhibit := false, cycles := s.cycles + 2 }

/-- Nothing outside program memory is fetched or looked at (a fault of the model, log 21): not a first word, not the
second word of a two-word instruction, and not the word after a skip that is taken. A skip that is not taken looks at
nothing and goes on to pc + 1, SBIC and SBIS having read their location: that is inferred (log 26). -/
def Obligations.FetchOutsideProgramStuck : Prop :=
  (∀ s : State, s.RunsInstruction →
    (s.par.flashWords ≤ s.pc.toNat → step s = .fault (.unmappedProgram (2 * s.pc.toNat))) ∧
    (∀ w, s.progWord s.pc = some w → isTwoWord w = true → s.par.flashWords ≤ (s.pc + 1).toNat →
      step s = .fault (.unmappedProgram (2 * (s.pc + 1).toNat)))) ∧
  (∀ (s : State) (d r : Reg) (a : BitVec 5) (b : BitNo) (v : Byte) (u : State) (i : Instr) (taken : Bool) (w : State),
    v = deviceAnswer (ioBitAddr a) s →
    u = { s with devIn := s.devIn.tail, trace := .devRead (ioBitAddr a) v :: s.trace } →
    (i, taken, w) ∈ [
      (Instr.cpse d r, decide (s.reg d = s.reg r), s), (.sbrc r b, !bitOf (s.reg r) b, s),
      (.sbrs r b, bitOf (s.reg r) b, s), (.sbic a b, !bitOf v b, u), (.sbis a b, bitOf v b, u)] →
    s.par.flashWords ≤ (s.pc + 1).toNat →
    exec i s =
      if taken then .fault (.unmappedProgram (2 * (s.pc + 1).toNat))
      else .next { w with pc := s.pc + 1, cycles := s.cycles + 1 })

/-- What every instruction that completes may change. The registers and flags of its row's cells, a register or SREG that
its store addresses, and no other; the bytes of data memory at the addresses it stores to, computed from the state before
it, and no other; pc, by its length where its action does not write pc; never program memory or the parameters, nor (the
model's own, log 11 and log 13) the lines and the count of resets. -/
def Obligations.RowCellsHold : Prop :=
  ∀ (i : Instr) (s t : State), exec i s = .next t →
    (∀ r : Reg, r ∉ (rowCells i).dests → (∀ a ∈ (rowCells i).stores s, a.toNat ≠ r.val) → t.reg r = s.reg r) ∧
    (∀ n : BitNo, n ∉ (rowCells i).flags → 0x5F ∉ (rowCells i).stores s → t.flag n = s.flag n) ∧
    (∀ b : Nat, (∀ a ∈ (rowCells i).stores s, a.toNat ≠ b) → t.ramByte b = s.ramByte b) ∧
    ((rowCells i).transfers = false → t.pc = s.pc + BitVec.ofNat 16 (encode i).length) ∧
    (∀ a, t.flashByte a = s.flashByte a) ∧ t.par = s.par ∧ t.pins = s.pins ∧ t.inputs = s.inputs ∧
    t.resets = s.resets

/-- Every instruction whose row names N and V writes S as N xor V. -/
def Obligations.SignIsNXorV : Prop :=
  ∀ (i : Instr) (s t : State), flagV ∈ (rowCells i).flags → flagN ∈ (rowCells i).flags →
    exec i s = .next t → t.flag flagS = (t.flag flagN != t.flag flagV)

/-- An alias does exactly what its parent does. -/
def Obligations.AliasesActAsParents : Prop := ∀ (i : Instr) (s : State), exec i s = exec (canonical i) s

/-! ### Arithmetic and logic -/

/-- ADD and ADC complete from every state: the sum modulo 256, its flags as exact arithmetic, nothing else. -/
def Obligations.AddResultFlags : Prop :=
  ∀ (d r : Reg) (s : State),
    (∃ t, exec (.add d r) s = .next t ∧ OnlyRegsFlags [d] sixFlags 1 1 s t ∧
      (t.reg d).toNat = ((s.reg d).toNat + (s.reg r).toNat) % 256 ∧
      SumFlags (s.reg d) (s.reg r) false t) ∧
    (∃ t, exec (.adc d r) s = .next t ∧ OnlyRegsFlags [d] sixFlags 1 1 s t ∧
      (t.reg d).toNat = ((s.reg d).toNat + (s.reg r).toNat + (s.flag flagC).toNat) % 256 ∧
      SumFlags (s.reg d) (s.reg r) (s.flag flagC) t)

/-- LSL and ROL complete from every state: they double Rd (plus the old C, for ROL), with the flags of the sum
Rd + Rd. -/
def Obligations.LeftShiftsDouble : Prop :=
  ∀ (d : Reg) (s : State),
    (∃ t, exec (.lsl d) s = .next t ∧ OnlyRegsFlags [d] sixFlags 1 1 s t ∧
      (t.reg d).toNat = 2 * (s.reg d).toNat % 256 ∧
      SumFlags (s.reg d) (s.reg d) false t ∧ ShiftFlags (t.reg d) (bitOf (s.reg d) 7) t ∧
      t.flag flagH = bitOf (s.reg d) 3) ∧
    (∃ t, exec (.rol d) s = .next t ∧ OnlyRegsFlags [d] sixFlags 1 1 s t ∧
      (t.reg d).toNat = (2 * (s.reg d).toNat + (s.flag flagC).toNat) % 256 ∧
      SumFlags (s.reg d) (s.reg d) (s.flag flagC) t ∧ ShiftFlags (t.reg d) (bitOf (s.reg d) 7) t ∧
      t.flag flagH = bitOf (s.reg d) 3)

/-- SUB, SUBI, SBC, SBCI and NEG complete from every state: the difference modulo 256, its flags as exact arithmetic,
nothing else. With borrow, Z stays set only if it was set. -/
def Obligations.SubtractResultFlags : Prop :=
  ∀ (d r : Reg) (k : Byte) (s : State),
    (∃ t, exec (.sub d r) s = .next t ∧ OnlyRegsFlags [d] sixFlags 1 1 s t ∧
      ((t.reg d).toNat : Int) = exactDiff (s.reg d) (s.reg r) false % 256 ∧
      DiffFlags (s.reg d) (s.reg r) false t ∧ t.flag flagZ = decide (t.reg d = 0)) ∧
    (∃ t, exec (.subi d k) s = .next t ∧ OnlyRegsFlags [d] sixFlags 1 1 s t ∧
      ((t.reg d).toNat : Int) = exactDiff (s.reg d) k false % 256 ∧
      DiffFlags (s.reg d) k false t ∧ t.flag flagZ = decide (t.reg d = 0)) ∧
    (∃ t, exec (.sbc d r) s = .next t ∧ OnlyRegsFlags [d] sixFlags 1 1 s t ∧
      ((t.reg d).toNat : Int) = exactDiff (s.reg d) (s.reg r) (s.flag flagC) % 256 ∧
      DiffFlags (s.reg d) (s.reg r) (s.flag flagC) t ∧
      t.flag flagZ = (decide (t.reg d = 0) && s.flag flagZ)) ∧
    (∃ t, exec (.sbci d k) s = .next t ∧ OnlyRegsFlags [d] sixFlags 1 1 s t ∧
      ((t.reg d).toNat : Int) = exactDiff (s.reg d) k (s.flag flagC) % 256 ∧
      DiffFlags (s.reg d) k (s.flag flagC) t ∧
      t.flag flagZ = (decide (t.reg d = 0) && s.flag flagZ)) ∧
    (∃ t, exec (.neg d) s = .next t ∧ OnlyRegsFlags [d] sixFlags 1 1 s t ∧
      ((t.reg d).toNat : Int) = exactDiff 0 (s.reg d) false % 256 ∧
      DiffFlags 0 (s.reg d) false t ∧ t.flag flagZ = decide (t.reg d = 0))

/-- CP, CPC and CPI complete from every state: the flags of the subtraction, and no register. -/
def Obligations.CompareFlags : Prop :=
  ∀ (d r : Reg) (k : Byte) (s : State),
    (∃ t, exec (.cp d r) s = .next t ∧ OnlyRegsFlags [] sixFlags 1 1 s t ∧
      DiffFlags (s.reg d) (s.reg r) false t ∧ t.flag flagZ = decide (s.reg d = s.reg r)) ∧
    (∃ t, exec (.cpc d r) s = .next t ∧ OnlyRegsFlags [] sixFlags 1 1 s t ∧
      DiffFlags (s.reg d) (s.reg r) (s.flag flagC) t ∧
      t.flag flagZ =
        (decide (exactDiff (s.reg d) (s.reg r) (s.flag flagC) % 256 = 0) && s.flag flagZ)) ∧
    (∃ t, exec (.cpi d k) s = .next t ∧ OnlyRegsFlags [] sixFlags 1 1 s t ∧
      DiffFlags (s.reg d) k false t ∧ t.flag flagZ = decide (s.reg d = k))

/-- ADIW and SBIW complete for every pair: the 16-bit sum or difference, C and V as exact unsigned and signed overflow,
H and everything else unchanged. -/
def Obligations.WordAddSubtract : Prop :=
  ∀ (d : Reg) (k : BitVec 6) (s : State), isPairLow d = true →
    (∃ t, exec (.adiw d k) s = .next t ∧ OnlyRegsFlags [d, d + 1] fiveFlags 1 2 s t ∧
      (t.pair d).toNat = ((s.pair d).toNat + k.toNat) % 65536 ∧
      t.flag flagC = decide (65536 ≤ (s.pair d).toNat + k.toNat) ∧
      t.flag flagV = decide (32767 < (s.pair d).toInt + k.toNat) ∧
      t.flag flagN = decide (32768 ≤ (t.pair d).toNat) ∧
      t.flag flagZ = decide ((t.pair d).toNat = 0) ∧
      t.flag flagS = (t.flag flagN != t.flag flagV)) ∧
    (∃ t, exec (.sbiw d k) s = .next t ∧ OnlyRegsFlags [d, d + 1] fiveFlags 1 2 s t ∧
      ((t.pair d).toNat : Int) = ((s.pair d).toNat - k.toNat : Int) % 65536 ∧
      t.flag flagC = decide ((s.pair d).toNat < k.toNat) ∧
      t.flag flagV = decide ((s.pair d).toInt - k.toNat < -32768) ∧
      t.flag flagN = decide (32768 ≤ (t.pair d).toNat) ∧
      t.flag flagZ = decide ((t.pair d).toNat = 0) ∧
      t.flag flagS = (t.flag flagN != t.flag flagV))

/-- AND, ANDI, OR, ORI, EOR and their spellings SBR, CBR, TST, CLR complete from every state: bit by bit the operation,
V cleared, N, Z and S from the result, C and H unchanged. -/
def Obligations.LogicResultFlags : Prop :=
  ∀ (d r : Reg) (k : Byte) (s : State),
    (∃ t, exec (.and d r) s = .next t ∧ OnlyRegsFlags [d] fourFlags 1 1 s t ∧ LogicFlags (t.reg d) t ∧
      ∀ n, bitOf (t.reg d) n = (bitOf (s.reg d) n && bitOf (s.reg r) n)) ∧
    (∃ t, exec (.andi d k) s = .next t ∧ OnlyRegsFlags [d] fourFlags 1 1 s t ∧ LogicFlags (t.reg d) t ∧
      ∀ n, bitOf (t.reg d) n = (bitOf (s.reg d) n && bitOf k n)) ∧
    (∃ t, exec (.or d r) s = .next t ∧ OnlyRegsFlags [d] fourFlags 1 1 s t ∧ LogicFlags (t.reg d) t ∧
      ∀ n, bitOf (t.reg d) n = (bitOf (s.reg d) n || bitOf (s.reg r) n)) ∧
    (∃ t, exec (.ori d k) s = .next t ∧ OnlyRegsFlags [d] fourFlags 1 1 s t ∧ LogicFlags (t.reg d) t ∧
      ∀ n, bitOf (t.reg d) n = (bitOf (s.reg d) n || bitOf k n)) ∧
    (∃ t, exec (.eor d r) s = .next t ∧ OnlyRegsFlags [d] fourFlags 1 1 s t ∧ LogicFlags (t.reg d) t ∧
      ∀ n, bitOf (t.reg d) n = (bitOf (s.reg d) n != bitOf (s.reg r) n)) ∧
    (∃ t, exec (.sbr d k) s = .next t ∧ OnlyRegsFlags [d] fourFlags 1 1 s t ∧ LogicFlags (t.reg d) t ∧
      ∀ n, bitOf (t.reg d) n = (bitOf (s.reg d) n || bitOf k n)) ∧
    (∃ t, exec (.cbr d k) s = .next t ∧ OnlyRegsFlags [d] fourFlags 1 1 s t ∧ LogicFlags (t.reg d) t ∧
      ∀ n, bitOf (t.reg d) n = (bitOf (s.reg d) n && !bitOf k n)) ∧
    (∃ t, exec (.tst d) s = .next t ∧ OnlyRegsFlags [] fourFlags 1 1 s t ∧ LogicFlags (s.reg d) t) ∧
    (∃ t, exec (.clr d) s = .next t ∧ OnlyRegsFlags [d] fourFlags 1 1 s t ∧ LogicFlags 0 t ∧ t.reg d = 0)

/-- COM, INC and DEC complete from every state: 255 - Rd with C set; Rd + 1 and Rd - 1 modulo 256 with V set only on
leaving the signed range, and C and H unchanged. -/
def Obligations.ComplementAndCount : Prop :=
  ∀ (d : Reg) (s : State),
    (∃ t, exec (.com d) s = .next t ∧ OnlyRegsFlags [d] fiveFlags 1 1 s t ∧
      (t.reg d).toNat = 255 - (s.reg d).toNat ∧ LogicFlags (t.reg d) t ∧ t.flag flagC = true) ∧
    (∃ t, exec (.inc d) s = .next t ∧ OnlyRegsFlags [d] fourFlags 1 1 s t ∧
      (t.reg d).toNat = ((s.reg d).toNat + 1) % 256 ∧
      t.flag flagV = decide (127 < (s.reg d).toInt + 1) ∧
      t.flag flagN = decide (128 ≤ (t.reg d).toNat) ∧ t.flag flagZ = decide ((t.reg d).toNat = 0) ∧
      t.flag flagS = (t.flag flagN != t.flag flagV)) ∧
    (∃ t, exec (.dec d) s = .next t ∧ OnlyRegsFlags [d] fourFlags 1 1 s t ∧
      (t.reg d).toNat = ((s.reg d).toNat + 255) % 256 ∧
      t.flag flagV = decide ((s.reg d).toInt - 1 < -128) ∧
      t.flag flagN = decide (128 ≤ (t.reg d).toNat) ∧ t.flag flagZ = decide ((t.reg d).toNat = 0) ∧
      t.flag flagS = (t.flag flagN != t.flag flagV))

/-- MUL, MULS and MULSU complete from every state: R1:R0 read as the operands are read (unsigned, signed, signed) is the
exact product, C is its bit 15, Z says that it is 0, nothing else changes. -/
def Obligations.MultiplyProduct : Prop :=
  ∀ (d r : Reg) (s : State),
    (∃ t, exec (.mul d r) s = .next t ∧ OnlyRegsFlags [0, 1] [flagZ, flagC] 1 2 s t ∧
      (t.pair 0).toNat = (s.reg d).toNat * (s.reg r).toNat ∧
      t.flag flagC = decide (32768 ≤ (s.reg d).toNat * (s.reg r).toNat) ∧
      t.flag flagZ = decide ((s.reg d).toNat * (s.reg r).toNat = 0)) ∧
    (∃ t, exec (.muls d r) s = .next t ∧ OnlyRegsFlags [0, 1] [flagZ, flagC] 1 2 s t ∧
      (t.pair 0).toInt = (s.reg d).toInt * (s.reg r).toInt ∧
      t.flag flagC = decide ((s.reg d).toInt * (s.reg r).toInt < 0) ∧
      t.flag flagZ = decide ((s.reg d).toInt * (s.reg r).toInt = 0)) ∧
    (∃ t, exec (.mulsu d r) s = .next t ∧ OnlyRegsFlags [0, 1] [flagZ, flagC] 1 2 s t ∧
      (t.pair 0).toInt = (s.reg d).toInt * ((s.reg r).toNat : Int) ∧
      t.flag flagC = decide ((s.reg d).toInt * ((s.reg r).toNat : Int) < 0) ∧
      t.flag flagZ = decide ((s.reg d).toInt * ((s.reg r).toNat : Int) = 0))

/-- FMUL, FMULS and FMULSU complete from every state: R1:R0 is twice the product modulo 2^16, C is bit 15 of the product
before the shift, Z looks at the value written, nothing else changes. -/
def Obligations.FractionalProduct : Prop :=
  ∀ (d r : Reg) (s : State),
    (∃ t, exec (.fmul d r) s = .next t ∧ OnlyRegsFlags [0, 1] [flagZ, flagC] 1 2 s t ∧
      (t.pair 0).toNat = 2 * ((s.reg d).toNat * (s.reg r).toNat) % 65536 ∧
      t.flag flagC = decide (32768 ≤ (s.reg d).toNat * (s.reg r).toNat) ∧
      t.flag flagZ = decide (t.pair 0 = 0)) ∧
    (∃ t, exec (.fmuls d r) s = .next t ∧ OnlyRegsFlags [0, 1] [flagZ, flagC] 1 2 s t ∧
      ((t.pair 0).toNat : Int) = 2 * ((s.reg d).toInt * (s.reg r).toInt) % 65536 ∧
      t.flag flagC = decide ((s.reg d).toInt * (s.reg r).toInt < 0) ∧
      t.flag flagZ = decide (t.pair 0 = 0)) ∧
    (∃ t, exec (.fmulsu d r) s = .next t ∧ OnlyRegsFlags [0, 1] [flagZ, flagC] 1 2 s t ∧
      ((t.pair 0).toNat : Int) = 2 * ((s.reg d).toInt * ((s.reg r).toNat : Int)) % 65536 ∧
      t.flag flagC = decide ((s.reg d).toInt * ((s.reg r).toNat : Int) < 0) ∧
      t.flag flagZ = decide (t.pair 0 = 0))

/-- After a fractional multiplication Z is set only when the product is 0, so never together with C. -/
def Obligations.FractionalZeroMeansZero : Prop :=
  ∀ (d r : Reg) (s t : State) (i : Instr),
    i = .fmul d r ∨ i = .fmuls d r ∨ i = .fmulsu d r → exec i s = .next t → t.flag flagZ = true →
    t.flag flagC = false ∧ (s.reg d = 0 ∨ s.reg r = 0)

/-- After `CP Rd, Rr` each conditional branch is taken exactly when the operands compare as its name says. -/
def Obligations.CompareThenBranch : Prop :=
  ∀ (d r : Reg) (k : BitVec 7) (s : State), ∃ t, exec (.cp d r) s = .next t ∧
    (∃ u, exec (.breq k) t = .next u ∧
      u.pc = if s.reg d = s.reg r then relTarget 7 k t.pc else t.pc + 1) ∧
    (∃ u, exec (.brne k) t = .next u ∧
      u.pc = if s.reg d ≠ s.reg r then relTarget 7 k t.pc else t.pc + 1) ∧
    (∃ u, exec (.brlo k) t = .next u ∧
      u.pc = if (s.reg d).toNat < (s.reg r).toNat then relTarget 7 k t.pc else t.pc + 1) ∧
    (∃ u, exec (.brsh k) t = .next u ∧
      u.pc = if (s.reg r).toNat ≤ (s.reg d).toNat then relTarget 7 k t.pc else t.pc + 1) ∧
    (∃ u, exec (.brlt k) t = .next u ∧
      u.pc = if (s.reg d).toInt < (s.reg r).toInt then relTarget 7 k t.pc else t.pc + 1) ∧
    (∃ u, exec (.brge k) t = .next u ∧
      u.pc = if (s.reg r).toInt ≤ (s.reg d).toInt then relTarget 7 k t.pc else t.pc + 1)

/-- `CP Rl, Sl` then `CPC Rh, Sh` compares two 16-bit values: Z exactly when they are equal, C when unsigned lower, S
when signed lower. -/
def Obligations.WordCompare : Prop :=
  ∀ (dl dh rl rh : Reg) (s : State), ∃ t u, exec (.cp dl rl) s = .next t ∧ exec (.cpc dh rh) t = .next u ∧
    u.flag flagZ = decide (s.reg dl = s.reg rl ∧ s.reg dh = s.reg rh) ∧
    u.flag flagC = decide
      ((joinBytes (s.reg dh) (s.reg dl)).toNat < (joinBytes (s.reg rh) (s.reg rl)).toNat) ∧
    u.flag flagS = decide
      ((joinBytes (s.reg dh) (s.reg dl)).toInt < (joinBytes (s.reg rh) (s.reg rl)).toInt)

/-! ### Branches -/

/-- RJMP, JMP and IJMP complete from every state and change pc alone: to pc + 1 + k modulo 2^16 with k signed, to the
low 16 bits of k, to Z. -/
def Obligations.JumpTargets : Prop :=
  ∀ (s : State),
    (∀ k : BitVec 12, ∃ t, exec (.rjmp k) s = .next t ∧ OnlyJumps t.pc 2 s t ∧
      (t.pc.toNat : Int) = ((s.pc.toNat : Int) + 1 + k.toInt) % 65536) ∧
    (∀ k : BitVec 22, ∃ t, exec (.jmp k) s = .next t ∧ OnlyJumps t.pc 3 s t ∧
      t.pc.toNat = k.toNat % 65536) ∧
    (∃ t, exec .ijmp s = .next t ∧ OnlyJumps t.pc 2 s t ∧
      t.pc.toNat = 256 * (s.reg 31).toNat + (s.reg 30).toNat)

/-- RCALL, ICALL and CALL complete wherever the stack bytes lie on something other than SP itself: the address of the
following instruction is stacked, pc is the target, nothing else changes. -/
def Obligations.CallsPushReturnAddress : Prop :=
  ∀ (s : State), StackByte s s.sp → StackByte s (s.sp - 1) →
    (∀ k : BitVec 12, ∃ w, Pushes (s.pc + 1) s w ∧
      exec (.rcall k) s = .next { w with pc := relTarget 12 k s.pc, cycles := w.cycles + 3 }) ∧
    (∃ w, Pushes (s.pc + 1) s w ∧
      exec .icall s = .next { w with pc := joinBytes (s.reg 31) (s.reg 30), cycles := w.cycles + 3 }) ∧
    (∀ k : BitVec 22, ∃ w, Pushes (s.pc + 2) s w ∧
      exec (.call k) s = .next { w with pc := k.setWidth 16, cycles := w.cycles + 4 })

/-- RET and RETI complete wherever the two bytes above SP lie on something the return does not itself update: the high
byte from SP + 1, the low byte from SP + 2, SP two higher; RETI also sets I and the latch; nothing else changes. -/
def Obligations.ReturnsPopAddress : Prop :=
  ∀ (s : State), StackByte s (s.sp + 1) → StackByte s (s.sp + 2) →
    (∃ h l u w, Loads (s.sp + 1) s h u ∧ Loads (s.sp + 2) u l w ∧
      exec .ret s = .next { w with sp := s.sp + 2, pc := joinBytes h l, cycles := w.cycles + 4 }) ∧
    (s.sp + 1 ≠ 0x5F → s.sp + 2 ≠ 0x5F →
      ∃ h l u w, Loads (s.sp + 1) s h u ∧ Loads (s.sp + 2) u l w ∧
        exec .reti s = .next { w with
          sp := s.sp + 2
          pc := joinBytes h l
          sreg := s.sreg ||| 0x80
          inhibit := true
          cycles := w.cycles + 4 })

/-- A call with its stack in memory, then RET: execution goes on after the call with SP as it was and no register,
flag or other byte of memory changed. -/
def Obligations.CallThenReturn : Prop :=
  ∀ (s t : State) (i : Instr), region s.par s.sp = .memory → region s.par (s.sp - 1) = .memory →
    (∃ k, i = .rcall k) ∨ i = .icall ∨ (∃ k, i = .call k) → exec i s = .next t →
    ∃ u, exec .ret t = .next u ∧ u.pc = s.pc + BitVec.ofNat 16 (encode i).length ∧ u.sp = s.sp ∧
      KeepsRegs [] s u ∧ KeepsFlags [] s u ∧ u.rampz = s.rampz ∧
      (∀ a, a ≠ s.sp.toNat → a ≠ (s.sp - 1).toNat → u.ramByte a = s.ramByte a)

/-- CPSE, SBRC and SBRS complete wherever the following word can be looked at: pc + 1, or past the one instruction that
follows, one or two words long; nothing else changes. -/
def Obligations.RegisterSkips : Prop :=
  ∀ (s : State) (n : Word), s.progWord (s.pc + 1) = some n →
    (∀ d r : Reg, ∃ t cyc, exec (.cpse d r) s = .next t ∧ OnlyJumps t.pc cyc s t ∧
      t.pc = (if s.reg d = s.reg r then (if isTwoWord n then s.pc + 3 else s.pc + 2) else s.pc + 1) ∧
      cyc = (if s.reg d = s.reg r then (if isTwoWord n then 3 else 2) else 1)) ∧
    (∀ (r : Reg) (b : BitNo), ∃ t cyc, exec (.sbrc r b) s = .next t ∧ OnlyJumps t.pc cyc s t ∧
      t.pc = (if bitOf (s.reg r) b = false then (if isTwoWord n then s.pc + 3 else s.pc + 2)
        else s.pc + 1) ∧
      cyc = (if bitOf (s.reg r) b = false then (if isTwoWord n then 3 else 2) else 1)) ∧
    (∀ (r : Reg) (b : BitNo), ∃ t cyc, exec (.sbrs r b) s = .next t ∧ OnlyJumps t.pc cyc s t ∧
      t.pc = (if bitOf (s.reg r) b = true then (if isTwoWord n then s.pc + 3 else s.pc + 2)
        else s.pc + 1) ∧
      cyc = (if bitOf (s.reg r) b = true then (if isTwoWord n then 3 else 2) else 1))

/-- SBIC and SBIS complete wherever the following word can be looked at: they read the device location once, the platform
seeing the read, and skip on its bit; nothing else changes. -/
def Obligations.IoSkips : Prop :=
  ∀ (s : State) (n : Word) (a : BitVec 5) (b : BitNo), s.progWord (s.pc + 1) = some n →
    ∃ v u, Loads (ioBitAddr a) s v u ∧ region s.par (ioBitAddr a) = .device ∧
      (∃ t cyc, exec (.sbic a b) s = .next t ∧ OnlyJumps t.pc cyc u t ∧
        t.pc = (if bitOf v b = false then (if isTwoWord n then s.pc + 3 else s.pc + 2) else s.pc + 1) ∧
        cyc = (if bitOf v b = false then (if isTwoWord n then 3 else 2) else 1)) ∧
      (∃ t cyc, exec (.sbis a b) s = .next t ∧ OnlyJumps t.pc cyc u t ∧
        t.pc = (if bitOf v b = true then (if isTwoWord n then s.pc + 3 else s.pc + 2) else s.pc + 1) ∧
        cyc = (if bitOf v b = true then (if isTwoWord n then 3 else 2) else 1))

/-- BRBS, BRBC and their eighteen spellings complete from every state: taken exactly when the SREG bit is as named, to
pc + 1 + k modulo 2^16 with k signed, and nothing but pc changes. -/
def Obligations.StatusBranches : Prop :=
  ∀ (s : State) (k : BitVec 7) (i : Instr) (sb : BitNo) (want : Bool),
    (i, sb, want) ∈ [
      (Instr.breq k, flagZ, true), (.brne k, flagZ, false), (.brcs k, flagC, true),
      (.brcc k, flagC, false), (.brsh k, flagC, false), (.brlo k, flagC, true), (.brmi k, flagN, true),
      (.brpl k, flagN, false), (.brge k, flagS, false), (.brlt k, flagS, true), (.brhs k, flagH, true),
      (.brhc k, flagH, false), (.brts k, flagT, true), (.brtc k, flagT, false), (.brvs k, flagV, true),
      (.brvc k, flagV, false), (.brie k, flagI, true), (.brid k, flagI, false),
      (.brbs sb k, sb, true), (.brbc sb k, sb, false)] →
    ∃ t, exec i s = .next t ∧ OnlyJumps t.pc (if s.flag sb = want then 2 else 1) s t ∧
      (t.pc.toNat : Int) =
        ((s.pc.toNat : Int) + 1 + (if s.flag sb = want then k.toInt else 0)) % 65536

/-! ### Control and register moves -/

/-- NOP and SLEEP complete from every state: NOP changes pc alone; SLEEP puts the core to sleep exactly when the platform
enables it, and is a NOP otherwise. -/
def Obligations.NopAndSleep : Prop :=
  ∀ s : State,
    exec .nop s = .next { s with pc := s.pc + 1, cycles := s.cycles + 1 } ∧
    exec .sleep s = .next { s with
      pc := s.pc + 1
      cycles := s.cycles + 1
      asleep := s.pins.sleepEnabled || s.asleep }

/-- MOV, MOVW, LDI, SER and SWAP complete from every state and change no flag. MOVW reads both halves before it writes;
SWAP exchanges the nibbles. -/
def Obligations.RegisterMoves : Prop :=
  ∀ (d r : Reg) (k : Byte) (s : State),
    (∃ t, exec (.mov d r) s = .next t ∧ OnlyRegsFlags [d] [] 1 1 s t ∧ t.reg d = s.reg r) ∧
    (isEven d = true → isEven r = true → ∃ t, exec (.movw d r) s = .next t ∧
      OnlyRegsFlags [d, d + 1] [] 1 1 s t ∧ t.reg d = s.reg r ∧ t.reg (d + 1) = s.reg (r + 1)) ∧
    (∃ t, exec (.ldi d k) s = .next t ∧ OnlyRegsFlags [d] [] 1 1 s t ∧ t.reg d = k) ∧
    (∃ t, exec (.ser d) s = .next t ∧ OnlyRegsFlags [d] [] 1 1 s t ∧ t.reg d = 0xFF) ∧
    (∃ t, exec (.swap d) s = .next t ∧ OnlyRegsFlags [d] [] 1 1 s t ∧
      (t.reg d).toNat = 16 * ((s.reg d).toNat % 16) + (s.reg d).toNat / 16)

/-! ### Loads and stores of data space -/

/-- Every load that leaves its pointer alone completes wherever something is mapped: Rd is the byte at the address, pc
passes the instruction, nothing else changes but what a device read leaves. -/
def Obligations.LoadsKeepingPointer : Prop :=
  ∀ (d : Reg) (q io : BitVec 6) (k : Word) (s : State) (i : Instr) (a : Word) (len cyc : Nat),
    (i, a, len, cyc) ∈ [
      (Instr.ldX d, s.ptr .x, 1, 2), (.ldY d, s.ptr .y, 1, 2), (.ldZ d, s.ptr .z, 1, 2),
      (.lddY d q, s.ptr .y + q.setWidth 16, 1, 2), (.lddZ d q, s.ptr .z + q.setWidth 16, 1, 2),
      (.lds d k, k, 2, 2), (.inp d io, 0x20 + io.setWidth 16, 1, 1)] →
    region s.par a ≠ .unmapped →
    ∃ v u, Loads a s v u ∧
      exec i s = .next { u with
        regs := u.regs.set d v
        pc := s.pc + BitVec.ofNat 16 len
        cycles := u.cycles + cyc }

/-- Every load with post-increment or pre-decrement completes wherever something is mapped, for a destination and an
address outside the pointer: Rd is the byte at the old (increment) or new (decrement) pointer, the pointer moves by one
modulo 2^16. -/
def Obligations.LoadsUpdatingPointer : Prop :=
  ∀ (d : Reg) (s : State) (i : Instr) (p : Ptr) (a new : Word),
    (i, p, a, new) ∈ [
      (Instr.ldXInc d, Ptr.x, s.ptr .x, s.ptr .x + 1), (.ldXDec d, .x, s.ptr .x - 1, s.ptr .x - 1),
      (.ldYInc d, .y, s.ptr .y, s.ptr .y + 1), (.ldYDec d, .y, s.ptr .y - 1, s.ptr .y - 1),
      (.ldZInc d, .z, s.ptr .z, s.ptr .z + 1), (.ldZDec d, .z, s.ptr .z - 1, s.ptr .z - 1)] →
    region s.par a ≠ .unmapped → d ≠ p.lo → d ≠ p.hi → a.toNat ≠ p.lo.val → a.toNat ≠ p.hi.val →
    ∃ v u, Loads a s v u ∧
      exec i s = .next { u with
        regs := ((u.regs.set d v).set p.lo (lowByte new)).set p.hi (highByte new)
        pc := s.pc + 1
        cycles := u.cycles + 2 }

/-- Every store that leaves its pointer alone completes wherever something is mapped: the byte of Rr at the address, and
nothing else but pc. -/
def Obligations.StoresKeepingPointer : Prop :=
  ∀ (r : Reg) (q io : BitVec 6) (k : Word) (s : State) (i : Instr) (a : Word) (len cyc : Nat),
    (i, a, len, cyc) ∈ [
      (Instr.stX r, s.ptr .x, 1, 2), (.stY r, s.ptr .y, 1, 2), (.stZ r, s.ptr .z, 1, 2),
      (.stdY q r, s.ptr .y + q.setWidth 16, 1, 2), (.stdZ q r, s.ptr .z + q.setWidth 16, 1, 2),
      (.sts k r, k, 2, 2), (.out io r, 0x20 + io.setWidth 16, 1, 1)] →
    region s.par a ≠ .unmapped →
    ∃ u, Stores a (s.reg r) s u ∧
      exec i s = .next { u with pc := s.pc + BitVec.ofNat 16 len, cycles := u.cycles + cyc }

/-- Every store with post-increment or pre-decrement completes wherever something is mapped, for a source and an address
outside the pointer: the byte of Rr at the old (increment) or new (decrement) pointer, the pointer moved by one modulo
2^16. -/
def Obligations.StoresUpdatingPointer : Prop :=
  ∀ (r : Reg) (s : State) (i : Instr) (p : Ptr) (a new : Word),
    (i, p, a, new) ∈ [
      (Instr.stXInc r, Ptr.x, s.ptr .x, s.ptr .x + 1), (.stXDec r, .x, s.ptr .x - 1, s.ptr .x - 1),
      (.stYInc r, .y, s.ptr .y, s.ptr .y + 1), (.stYDec r, .y, s.ptr .y - 1, s.ptr .y - 1),
      (.stZInc r, .z, s.ptr .z, s.ptr .z + 1), (.stZDec r, .z, s.ptr .z - 1, s.ptr .z - 1)] →
    region s.par a ≠ .unmapped → r ≠ p.lo → r ≠ p.hi → a.toNat ≠ p.lo.val → a.toNat ≠ p.hi.val →
    ∃ u, Stores a (s.reg r) s u ∧
      exec i s = .next { u with
        regs := (u.regs.set p.lo (lowByte new)).set p.hi (highByte new)
        pc := s.pc + 1
        cycles := u.cycles + 2 }

/-- The open cases U3, U4 and U5 still complete. A load into half of its own pointer leaves any values in both halves; a
load from its own pointer's address leaves any value in Rd and the pointer by the rule; a store of half of its own
pointer stores any byte and the pointer by the rule; a store to half of its own pointer leaves any value in that half and
the other half by the rule. Nothing else changes. The form of the open values is the model's choice (log 16 to log 18). -/
def Obligations.OwnPointerStaysOpen : Prop :=
  ∀ (d : Reg) (s : State) (ld st : Instr) (p : Ptr) (a new : Word),
    (ld, st, p, a, new) ∈ [
      (Instr.ldXInc d, Instr.stXInc d, Ptr.x, s.ptr .x, s.ptr .x + 1),
      (.ldXDec d, .stXDec d, .x, s.ptr .x - 1, s.ptr .x - 1),
      (.ldYInc d, .stYInc d, .y, s.ptr .y, s.ptr .y + 1),
      (.ldYDec d, .stYDec d, .y, s.ptr .y - 1, s.ptr .y - 1),
      (.ldZInc d, .stZInc d, .z, s.ptr .z, s.ptr .z + 1),
      (.ldZDec d, .stZDec d, .z, s.ptr .z - 1, s.ptr .z - 1)] →
    region s.par a ≠ .unmapped →
    (d = p.lo ∨ d = p.hi → ∃ v u h l, Loads a s v u ∧
      exec ld s = .next { u with
        regs := (u.regs.set p.lo l).set p.hi h
        freeCount := u.freeCount + 2
        pc := s.pc + 1
        cycles := u.cycles + 2 }) ∧
    (d ≠ p.lo → d ≠ p.hi → a.toNat = p.lo.val ∨ a.toNat = p.hi.val → ∃ b,
      exec ld s = .next { s with
        regs := ((s.regs.set d b).set p.lo (lowByte new)).set p.hi (highByte new)
        freeCount := s.freeCount + 1
        pc := s.pc + 1
        cycles := s.cycles + 2 }) ∧
    (d = p.lo ∨ d = p.hi → a.toNat ≠ p.lo.val → a.toNat ≠ p.hi.val → ∃ b u,
      Stores a b { s with freeCount := s.freeCount + 1 } u ∧
      exec st s = .next { u with
        regs := (u.regs.set p.lo (lowByte new)).set p.hi (highByte new)
        pc := s.pc + 1
        cycles := u.cycles + 2 }) ∧
    (a.toNat = p.lo.val → ∃ b n, exec st s = .next { s with
        regs := (s.regs.set p.lo b).set p.hi (highByte new)
        freeCount := s.freeCount + n
        pc := s.pc + 1
        cycles := s.cycles + 2 }) ∧
    (a.toNat = p.hi.val → ∃ b n, exec st s = .next { s with
        regs := (s.regs.set p.lo (lowByte new)).set p.hi b
        freeCount := s.freeCount + n
        pc := s.pc + 1
        cycles := s.cycles + 2 })

/-- No load, store, push, pop, call, return or interrupt entry steps where the map has nothing: the machine is stuck (a
fault of the model, log 21). A call, a return and an entry are stuck as a whole where only their second stack byte has no
place. -/
def Obligations.UnmappedDataStuck : Prop :=
  (∀ (d : Reg) (q : BitVec 6) (k : Word) (k12 : BitVec 12) (k22 : BitVec 22) (s : State) (i : Instr) (a : Word),
    (i, a) ∈ [
      (Instr.ldX d, s.ptr .x), (.ldXInc d, s.ptr .x), (.ldXDec d, s.ptr .x - 1),
      (.ldY d, s.ptr .y), (.ldYInc d, s.ptr .y), (.ldYDec d, s.ptr .y - 1),
      (.lddY d q, s.ptr .y + q.setWidth 16), (.ldZ d, s.ptr .z), (.ldZInc d, s.ptr .z),
      (.ldZDec d, s.ptr .z - 1), (.lddZ d q, s.ptr .z + q.setWidth 16), (.lds d k, k),
      (.stX d, s.ptr .x), (.stXInc d, s.ptr .x), (.stXDec d, s.ptr .x - 1),
      (.stY d, s.ptr .y), (.stYInc d, s.ptr .y), (.stYDec d, s.ptr .y - 1),
      (.stdY q d, s.ptr .y + q.setWidth 16), (.stZ d, s.ptr .z), (.stZInc d, s.ptr .z),
      (.stZDec d, s.ptr .z - 1), (.stdZ q d, s.ptr .z + q.setWidth 16), (.sts k d, k),
      (.push d, s.sp), (.pop d, s.sp + 1), (.rcall k12, s.sp), (.icall, s.sp), (.call k22, s.sp),
      (.ret, s.sp + 1), (.reti, s.sp + 1)] →
    region s.par a = .unmapped → exec i s = .fault (.unmappedData a)) ∧
  (∀ (k12 : BitVec 12) (k22 : BitVec 22) (s : State) (i : Instr) (a b : Word),
    (i, a, b) ∈ [
      (Instr.rcall k12, s.sp, s.sp - 1), (.icall, s.sp, s.sp - 1), (.call k22, s.sp, s.sp - 1),
      (.ret, s.sp + 1, s.sp + 2), (.reti, s.sp + 1, s.sp + 2)] →
    region s.par a ≠ .unmapped → region s.par b = .unmapped → exec i s = .fault (.unmappedData b)) ∧
  (∀ s : State, s.sample.pins.reset = false → s.flag flagI = true → (s.asleep = true ∨ s.inhibit = false) →
    s.sample.pending ≠ none →
    (region s.par s.sp = .unmapped → step s = .fault (.unmappedData s.sp)) ∧
    (region s.par s.sp ≠ .unmapped → region s.par (s.sp - 1) = .unmapped →
      step s = .fault (.unmappedData (s.sp - 1))))

/-- A byte stored to data memory is what a load of its address then reads, and every other byte reads as before. -/
def Obligations.StoreThenLoad : Prop :=
  ∀ (k : Word) (r d : Reg) (s : State), region s.par k = .memory →
    ∃ t u, exec (.sts k r) s = .next t ∧ exec (.lds d k) t = .next u ∧ u.reg d = s.reg r ∧
      KeepsRegs [d] s u ∧ KeepsFlags [] s u ∧ u.pc = s.pc + 4 ∧
      (∀ a, a ≠ k.toNat → u.ramByte a = s.ramByte a)

/-! ### Program memory -/

/-- LPM and ELPM without increment complete wherever program memory has the byte and are stuck elsewhere: the byte of
the word at half the byte address, the low byte at an even address, the high byte at an odd one. -/
def Obligations.ProgramByteLoads : Prop :=
  ∀ (d : Reg) (s : State) (i : Instr) (e : Reg) (a : Nat),
    (i, e, a) ∈ [
      (Instr.lpmR0, (0 : Reg), (s.ptr .z).toNat), (.lpm d, d, (s.ptr .z).toNat),
      (.elpmR0, 0, (s.rampz &&& rampzMask s.par).toNat * 65536 + (s.ptr .z).toNat),
      (.elpm d, d, (s.rampz &&& rampzMask s.par).toNat * 65536 + (s.ptr .z).toNat)] →
    (∀ w, s.progWord (BitVec.ofNat 16 (a / 2)) = some w → a / 2 < 65536 →
      ∃ t, exec i s = .next t ∧ OnlyRegsFlags [e] [] 1 3 s t ∧
        t.reg e = (if a % 2 = 0 then lowByte w else highByte w)) ∧
    (s.par.flashWords ≤ a / 2 → exec i s = .fault (.unmappedProgram a))

/-- `LPM Rd, Z+` and `ELPM Rd, Z+` complete wherever program memory has the byte: Z moves by one, the carry is dropped
(LPM) or goes into the implemented bits of RAMPZ (ELPM). Into a half of Z, both halves are open (U6) and RAMPZ still
follows the rule (log 16, log 20). Where program memory has no byte at the address, they are stuck (log 21). -/
def Obligations.ProgramLoadsIncrement : Prop :=
  ∀ (d : Reg) (s : State),
    (∀ v, s.progByte (s.ptr .z).toNat = some v →
      (d ≠ 30 → d ≠ 31 → ∃ t, exec (.lpmInc d) s = .next t ∧ OnlyRegsFlags [d, 30, 31] [] 1 3 s t ∧
        t.reg d = v ∧ (t.ptr .z).toNat = ((s.ptr .z).toNat + 1) % 65536) ∧
      (d = 30 ∨ d = 31 → ∃ h l, exec (.lpmInc d) s = .next { s with
        regs := (s.regs.set 30 l).set 31 h
        freeCount := s.freeCount + 2
        pc := s.pc + 1
        cycles := s.cycles + 3 })) ∧
    (∀ v z, s.par.rampzBits ≤ 8 → s.rampz &&& rampzMask s.par = s.rampz →
      s.progByte (s.rampz.toNat * 65536 + (s.ptr .z).toNat) = some v →
      z = (s.rampz.toNat * 65536 + (s.ptr .z).toNat + 1) % 2 ^ (s.par.rampzBits + 16) →
      (d ≠ 30 → d ≠ 31 → exec (.elpmInc d) s = .next { s with
        regs := ((s.regs.set d v).set 30 (BitVec.ofNat 8 z)).set 31 (BitVec.ofNat 8 (z / 256))
        rampz := BitVec.ofNat 8 (z / 65536)
        pc := s.pc + 1
        cycles := s.cycles + 3 }) ∧
      (d = 30 ∨ d = 31 → ∃ h l, exec (.elpmInc d) s = .next { s with
        regs := (s.regs.set 30 l).set 31 h
        rampz := BitVec.ofNat 8 (z / 65536)
        freeCount := s.freeCount + 2
        pc := s.pc + 1
        cycles := s.cycles + 3 })) ∧
    (∀ (i : Instr) (a : Nat), (i, a) ∈ [
      (Instr.lpmInc d, (s.ptr .z).toNat),
      (.elpmInc d, (s.rampz &&& rampzMask s.par).toNat * 65536 + (s.ptr .z).toNat)] →
      s.par.flashWords ≤ a / 2 → exec i s = .fault (.unmappedProgram a))

/-- SPM is refused in every state: the spec gives it no meaning (log 23). -/
def Obligations.SpmRefused : Prop := ∀ s : State, exec .spm s = .refused .spmMechanismNotInSource

/-! ### The stack -/

/-- PUSH and POP complete wherever the stack byte lies on something other than SP itself: the byte at SP with SP one
lower, the byte at SP + 1 with SP one higher, modulo 2^16; nothing else changes. -/
def Obligations.PushAndPop : Prop :=
  ∀ (s : State) (r : Reg),
    (StackByte s s.sp → ∃ u, Stores s.sp (s.reg r) s u ∧
      exec (.push r) s = .next { u with sp := s.sp - 1, pc := s.pc + 1, cycles := u.cycles + 2 }) ∧
    (StackByte s (s.sp + 1) → ∃ v u, Loads (s.sp + 1) s v u ∧
      exec (.pop r) s = .next { u with
        sp := s.sp + 1
        regs := u.regs.set r v
        pc := s.pc + 1
        cycles := u.cycles + 2 })

/-- PUSH then POP moves the byte and restores SP, with the stack in memory. -/
def Obligations.PushThenPop : Prop :=
  ∀ (s : State) (r d : Reg), region s.par s.sp = .memory →
    ∃ t u, exec (.push r) s = .next t ∧ exec (.pop d) t = .next u ∧ u.reg d = s.reg r ∧ u.sp = s.sp ∧
      KeepsRegs [d] s u ∧ KeepsFlags [] s u ∧ u.pc = s.pc + 2 ∧
      (∀ a, a ≠ s.sp.toNat → u.ramByte a = s.ramByte a)

/-- The open cases of U5 on the stack still complete. A byte pushed on SPL or SPH leaves any value in SP; a byte popped
from SPL or SPH is any byte, with SP by the rule. A call with a byte on SPL or SPH reaches its target; a return from
there has SP by the rule, and RETI sets I and the latch; no register or byte of memory changes. A RETI that pops a byte
from SREG, and an interrupt entry that stacks a byte on SREG, SPL or SPH, complete too. The form of the open values is
the model's choice (log 19, log 20). -/
def Obligations.StackOnSpStaysOpen : Prop :=
  ∀ (s : State) (r : Reg),
    (s.sp = 0x5D ∨ s.sp = 0x5E → ∃ w, exec (.push r) s = .next { s with
      sp := w, freeCount := s.freeCount + 2, pc := s.pc + 1, cycles := s.cycles + 2 }) ∧
    (s.sp + 1 = 0x5D ∨ s.sp + 1 = 0x5E → ∃ b, exec (.pop r) s = .next { s with
      sp := s.sp + 1, regs := s.regs.set r b, freeCount := s.freeCount + 1, pc := s.pc + 1,
      cycles := s.cycles + 2 }) ∧
    (∀ (k12 : BitVec 12) (k22 : BitVec 22) (i : Instr) (target : Word),
      (i, target) ∈ [(Instr.rcall k12, relTarget 12 k12 s.pc), (.icall, joinBytes (s.reg 31) (s.reg 30)),
        (.call k22, k22.setWidth 16)] →
      s.sp = 0x5D ∨ s.sp = 0x5E ∨ s.sp = 0x5F →
      ∃ t, exec i s = .next t ∧ t.pc = target ∧ KeepsRegs [] s t ∧ KeepsMemory s t) ∧
    (s.sp = 0x5B ∨ s.sp = 0x5C ∨ s.sp = 0x5D →
      (∃ t, exec .ret s = .next t ∧ t.sp = s.sp + 2 ∧ KeepsRegs [] s t ∧ KeepsFlags [] s t ∧
        KeepsMemory s t) ∧
      (∃ t, exec .reti s = .next t ∧ t.sp = s.sp + 2 ∧ t.flag flagI = true ∧ t.inhibit = true ∧
        KeepsRegs [] s t ∧ KeepsFlags [flagI] s t ∧ KeepsMemory s t)) ∧
    (s.sp = 0x5E → region s.par 0x60 ≠ .unmapped → ∃ t, exec .reti s = .next t ∧
      t.sp = 0x60 ∧ t.flag flagI = true ∧ t.inhibit = true ∧ KeepsRegs [] s t ∧ KeepsFlags [flagI] s t) ∧
    (∀ n, s.sp = 0x5D ∨ s.sp = 0x5E ∨ s.sp = 0x5F ∨ (s.sp = 0x60 ∧ region s.par 0x60 ≠ .unmapped) →
      ∃ t, enterInterrupt n s = .next t ∧ t.pc = vectorAddress s.par n ∧ t.inhibit = false ∧
        t.asleep = false ∧ t.trace.head? = some (.irqAck n) ∧ KeepsRegs [] s t)

/-! ### Bits -/

/-- LSR, ROR and ASR complete from every state: half of Rd with 0, the old C or the old bit 7 entering, the bit shifted
out in C, H unchanged. -/
def Obligations.RightShiftsHalve : Prop :=
  ∀ (d : Reg) (s : State),
    (∃ t, exec (.lsr d) s = .next t ∧ OnlyRegsFlags [d] fiveFlags 1 1 s t ∧
      (t.reg d).toNat = (s.reg d).toNat / 2 ∧ ShiftFlags (t.reg d) (bitOf (s.reg d) 0) t) ∧
    (∃ t, exec (.ror d) s = .next t ∧ OnlyRegsFlags [d] fiveFlags 1 1 s t ∧
      (t.reg d).toNat = (s.reg d).toNat / 2 + 128 * (s.flag flagC).toNat ∧
      ShiftFlags (t.reg d) (bitOf (s.reg d) 0) t) ∧
    (∃ t, exec (.asr d) s = .next t ∧ OnlyRegsFlags [d] fiveFlags 1 1 s t ∧
      (t.reg d).toInt = (s.reg d).toInt / 2 ∧ ShiftFlags (t.reg d) (bitOf (s.reg d) 0) t)

/-- Nine ROLs, or nine RORs, in a row restore Rd and C. -/
def Obligations.NineRotatesRestore : Prop :=
  ∀ (d : Reg) (s t : State) (i : Instr), i = .rol d ∨ i = .ror d → Repeats i 9 s t →
    t.reg d = s.reg d ∧ t.flag flagC = s.flag flagC ∧ KeepsRegs [] s t

/-- SBI and CBI complete from every state: the location is read, then written with the one bit changed, the platform
seeing both; nothing else changes. -/
def Obligations.IoBitsReadModifyWrite : Prop :=
  ∀ (a : BitVec 5) (b : BitNo) (s : State) (i : Instr) (on : Bool),
    (i, on) ∈ [(Instr.sbi a b, true), (.cbi a b, false)] →
    ∃ v w, v = deviceAnswer (ioBitAddr a) s ∧
      (∀ n, bitOf w n = if n = b then on else bitOf v n) ∧
      exec i s = .next { s with
        devIn := s.devIn.tail
        trace := .devWrite (ioBitAddr a) w :: .devRead (ioBitAddr a) v :: s.trace
        pc := s.pc + 1
        cycles := s.cycles + 2 }

/-- BSET and BCLR with every bit but the setting of I, and the fifteen spellings of them, complete from every state: the
one bit is set or cleared and nothing else changes. -/
def Obligations.FlagSetClear : Prop :=
  ∀ (s : State) (i : Instr) (sb : BitNo) (on : Bool),
    (i, sb, on) ∈ [
      (Instr.sec, flagC, true), (.clc, flagC, false), (.sen, flagN, true), (.cln, flagN, false),
      (.sez, flagZ, true), (.clz, flagZ, false), (.cli, flagI, false), (.ses, flagS, true),
      (.cls, flagS, false), (.sev, flagV, true), (.clv, flagV, false), (.set, flagT, true),
      (.clt, flagT, false), (.seh, flagH, true), (.clh, flagH, false),
      (.bset sb, sb, true), (.bclr sb, sb, false)] →
    (sb = flagI → on = false) →
    ∃ t, exec i s = .next t ∧ OnlyRegsFlags [] [sb] 1 1 s t ∧ t.flag sb = on

/-- SEI and `BSET 7` complete from every state with I set; where I was clear the latch is set, where I was set already it
is open (any value, log 24) and SREG as it was. -/
def Obligations.TurningInterruptsOn : Prop :=
  ∀ (s : State) (i : Instr), i = .sei ∨ i = .bset flagI →
    (s.flag flagI = false → exec i s = .next { s with
      sreg := s.sreg ||| 0x80, inhibit := true, pc := s.pc + 1, cycles := s.cycles + 1 }) ∧
    (s.flag flagI = true → ∃ b, exec i s = .next { s with
      inhibit := b, freeCount := s.freeCount + 1, pc := s.pc + 1, cycles := s.cycles + 1 })

/-- BST and BLD complete from every state. BST copies one bit of a register into T, BLD copies T into one bit of a
register, and neither changes anything else; so `BST Ra, i` then `BLD Rb, j` moves one bit between registers without
touching any other flag than T. -/
def Obligations.BitThroughT : Prop :=
  ∀ (a b : Reg) (i j : BitNo) (s : State),
    (∃ u, exec (.bld b j) s = .next u ∧ OnlyRegsFlags [b] [] 1 1 s u ∧
      ∀ n, bitOf (u.reg b) n = if n = j then s.flag flagT else bitOf (s.reg b) n) ∧
    (∃ t u, exec (.bst a i) s = .next t ∧ exec (.bld b j) t = .next u ∧
      OnlyRegsFlags [] [flagT] 1 1 s t ∧ t.flag flagT = bitOf (s.reg a) i ∧
      OnlyRegsFlags [b] [] 1 1 t u ∧
      (∀ n, bitOf (u.reg b) n = if n = j then bitOf (s.reg a) i else bitOf (s.reg b) n))

/-- What OUT writes to SREG, SPH, SPL and RAMPZ, IN reads back, the unimplemented bits of RAMPZ as 0; the halves of SP
are written one at a time. A write of SREG that does not turn I on leaves the latch as it was: R45 names only writes that
change I from 0 to 1, and the rest is the model's choice (log 24). -/
def Obligations.CoreRegistersThroughIo : Prop :=
  ∀ (r d : Reg) (s : State),
    (∃ t u, exec (.out 0x3F r) s = .next t ∧ exec (.inp d 0x3F) t = .next u ∧
      t.sreg = s.reg r ∧ u.reg d = s.reg r ∧
      (s.flag flagI = true ∨ bitOf (s.reg r) flagI = false → t.inhibit = s.inhibit)) ∧
    (∃ t u, exec (.out 0x3E r) s = .next t ∧ exec (.inp d 0x3E) t = .next u ∧
      t.sp = joinBytes (s.reg r) (lowByte s.sp) ∧ u.reg d = s.reg r ∧ KeepsFlags [] s u) ∧
    (∃ t u, exec (.out 0x3D r) s = .next t ∧ exec (.inp d 0x3D) t = .next u ∧
      t.sp = joinBytes (highByte s.sp) (s.reg r) ∧ u.reg d = s.reg r ∧ KeepsFlags [] s u) ∧
    (∃ t u, exec (.out 0x3B r) s = .next t ∧ exec (.inp d 0x3B) t = .next u ∧
      t.rampz = s.reg r &&& rampzMask s.par ∧ u.reg d = s.reg r &&& rampzMask s.par ∧
      KeepsFlags [] s u)
end

