-- ==== Sys2Proof/Laws/State.lean ====
section
/-! SUPPORT. One lemma per field, and per accessor, per update of the state, each true by rfl: no later proof unfolds a
record update. -/

namespace Sys2Proof.Laws

open Sys2Proof.Machine

/-! ### setReg -/

@[simp] theorem setReg_regs (i : Reg) (v : Byte) (s : State) : (s.setReg i v).regs = s.regs.set i.val v := rfl
@[simp] theorem setReg_pc (i : Reg) (v : Byte) (s : State) : (s.setReg i v).pc = s.pc := rfl
@[simp] theorem setReg_sreg (i : Reg) (v : Byte) (s : State) : (s.setReg i v).sreg = s.sreg := rfl
@[simp] theorem setReg_sp (i : Reg) (v : Byte) (s : State) : (s.setReg i v).sp = s.sp := rfl
@[simp] theorem setReg_rampz (i : Reg) (v : Byte) (s : State) : (s.setReg i v).rampz = s.rampz := rfl
@[simp] theorem setReg_ram (i : Reg) (v : Byte) (s : State) : (s.setReg i v).ram = s.ram := rfl
@[simp] theorem setReg_flash (i : Reg) (v : Byte) (s : State) : (s.setReg i v).flash = s.flash := rfl
@[simp] theorem setReg_inhibit (i : Reg) (v : Byte) (s : State) : (s.setReg i v).inhibit = s.inhibit := rfl
@[simp] theorem setReg_asleep (i : Reg) (v : Byte) (s : State) : (s.setReg i v).asleep = s.asleep := rfl
@[simp] theorem setReg_par (i : Reg) (v : Byte) (s : State) : (s.setReg i v).par = s.par := rfl
@[simp] theorem setReg_pins (i : Reg) (v : Byte) (s : State) : (s.setReg i v).pins = s.pins := rfl
@[simp] theorem setReg_inputs (i : Reg) (v : Byte) (s : State) : (s.setReg i v).inputs = s.inputs := rfl
@[simp] theorem setReg_devIn (i : Reg) (v : Byte) (s : State) : (s.setReg i v).devIn = s.devIn := rfl
@[simp] theorem setReg_trace (i : Reg) (v : Byte) (s : State) : (s.setReg i v).trace = s.trace := rfl
@[simp] theorem setReg_freeCount (i : Reg) (v : Byte) (s : State) : (s.setReg i v).freeCount = s.freeCount := rfl
@[simp] theorem setReg_resets (i : Reg) (v : Byte) (s : State) : (s.setReg i v).resets = s.resets := rfl
@[simp] theorem setReg_cycles (i : Reg) (v : Byte) (s : State) : (s.setReg i v).cycles = s.cycles := rfl
@[simp] theorem setReg_flag (i : Reg) (v : Byte) (n : BitNo) (s : State) : ((s.setReg i v).flag n) = s.flag n := rfl
@[simp] theorem setReg_ramByte (i : Reg) (v : Byte) (a : Nat) (s : State) : ((s.setReg i v).ramByte a) = s.ramByte a := rfl
@[simp] theorem setReg_flashByte (i : Reg) (v : Byte) (a : Nat) (s : State) : ((s.setReg i v).flashByte a) = s.flashByte a := rfl
@[simp] theorem setReg_progWord (i : Reg) (v : Byte) (w' : Word) (s : State) : ((s.setReg i v).progWord w') = s.progWord w' := rfl
@[simp] theorem setReg_progByte (i : Reg) (v : Byte) (a : Nat) (s : State) : ((s.setReg i v).progByte a) = s.progByte a := rfl
@[simp] theorem setReg_freeByte (i : Reg) (v : Byte) (s : State) : (s.setReg i v).freeByte = s.freeByte := rfl
@[simp] theorem setReg_freeBit (i : Reg) (v : Byte) (s : State) : (s.setReg i v).freeBit = s.freeBit := rfl
@[simp] theorem setReg_pending (i : Reg) (v : Byte) (s : State) : (s.setReg i v).pending = s.pending := rfl

/-! ### setPc -/

@[simp] theorem setPc_regs (w : Word) (s : State) : (s.setPc w).regs = s.regs := rfl
@[simp] theorem setPc_pc (w : Word) (s : State) : (s.setPc w).pc = w := rfl
@[simp] theorem setPc_sreg (w : Word) (s : State) : (s.setPc w).sreg = s.sreg := rfl
@[simp] theorem setPc_sp (w : Word) (s : State) : (s.setPc w).sp = s.sp := rfl
@[simp] theorem setPc_rampz (w : Word) (s : State) : (s.setPc w).rampz = s.rampz := rfl
@[simp] theorem setPc_ram (w : Word) (s : State) : (s.setPc w).ram = s.ram := rfl
@[simp] theorem setPc_flash (w : Word) (s : State) : (s.setPc w).flash = s.flash := rfl
@[simp] theorem setPc_inhibit (w : Word) (s : State) : (s.setPc w).inhibit = s.inhibit := rfl
@[simp] theorem setPc_asleep (w : Word) (s : State) : (s.setPc w).asleep = s.asleep := rfl
@[simp] theorem setPc_par (w : Word) (s : State) : (s.setPc w).par = s.par := rfl
@[simp] theorem setPc_pins (w : Word) (s : State) : (s.setPc w).pins = s.pins := rfl
@[simp] theorem setPc_inputs (w : Word) (s : State) : (s.setPc w).inputs = s.inputs := rfl
@[simp] theorem setPc_devIn (w : Word) (s : State) : (s.setPc w).devIn = s.devIn := rfl
@[simp] theorem setPc_trace (w : Word) (s : State) : (s.setPc w).trace = s.trace := rfl
@[simp] theorem setPc_freeCount (w : Word) (s : State) : (s.setPc w).freeCount = s.freeCount := rfl
@[simp] theorem setPc_resets (w : Word) (s : State) : (s.setPc w).resets = s.resets := rfl
@[simp] theorem setPc_cycles (w : Word) (s : State) : (s.setPc w).cycles = s.cycles := rfl
@[simp] theorem setPc_reg (w : Word) (j : Reg) (s : State) : ((s.setPc w).reg j) = s.reg j := rfl
@[simp] theorem setPc_flag (w : Word) (n : BitNo) (s : State) : ((s.setPc w).flag n) = s.flag n := rfl
@[simp] theorem setPc_ramByte (w : Word) (a : Nat) (s : State) : ((s.setPc w).ramByte a) = s.ramByte a := rfl
@[simp] theorem setPc_flashByte (w : Word) (a : Nat) (s : State) : ((s.setPc w).flashByte a) = s.flashByte a := rfl
@[simp] theorem setPc_progWord (w : Word) (w' : Word) (s : State) : ((s.setPc w).progWord w') = s.progWord w' := rfl
@[simp] theorem setPc_progByte (w : Word) (a : Nat) (s : State) : ((s.setPc w).progByte a) = s.progByte a := rfl
@[simp] theorem setPc_pair (w : Word) (j : Reg) (s : State) : ((s.setPc w).pair j) = s.pair j := rfl
@[simp] theorem setPc_ptr (w : Word) (q : Ptr) (s : State) : ((s.setPc w).ptr q) = s.ptr q := rfl
@[simp] theorem setPc_freeByte (w : Word) (s : State) : (s.setPc w).freeByte = s.freeByte := rfl
@[simp] theorem setPc_freeBit (w : Word) (s : State) : (s.setPc w).freeBit = s.freeBit := rfl
@[simp] theorem setPc_pending (w : Word) (s : State) : (s.setPc w).pending = s.pending := rfl

/-! ### setSreg -/

@[simp] theorem setSreg_regs (v : Byte) (s : State) : (s.setSreg v).regs = s.regs := rfl
@[simp] theorem setSreg_pc (v : Byte) (s : State) : (s.setSreg v).pc = s.pc := rfl
@[simp] theorem setSreg_sreg (v : Byte) (s : State) : (s.setSreg v).sreg = v := rfl
@[simp] theorem setSreg_sp (v : Byte) (s : State) : (s.setSreg v).sp = s.sp := rfl
@[simp] theorem setSreg_rampz (v : Byte) (s : State) : (s.setSreg v).rampz = s.rampz := rfl
@[simp] theorem setSreg_ram (v : Byte) (s : State) : (s.setSreg v).ram = s.ram := rfl
@[simp] theorem setSreg_flash (v : Byte) (s : State) : (s.setSreg v).flash = s.flash := rfl
@[simp] theorem setSreg_inhibit (v : Byte) (s : State) : (s.setSreg v).inhibit = s.inhibit := rfl
@[simp] theorem setSreg_asleep (v : Byte) (s : State) : (s.setSreg v).asleep = s.asleep := rfl
@[simp] theorem setSreg_par (v : Byte) (s : State) : (s.setSreg v).par = s.par := rfl
@[simp] theorem setSreg_pins (v : Byte) (s : State) : (s.setSreg v).pins = s.pins := rfl
@[simp] theorem setSreg_inputs (v : Byte) (s : State) : (s.setSreg v).inputs = s.inputs := rfl
@[simp] theorem setSreg_devIn (v : Byte) (s : State) : (s.setSreg v).devIn = s.devIn := rfl
@[simp] theorem setSreg_trace (v : Byte) (s : State) : (s.setSreg v).trace = s.trace := rfl
@[simp] theorem setSreg_freeCount (v : Byte) (s : State) : (s.setSreg v).freeCount = s.freeCount := rfl
@[simp] theorem setSreg_resets (v : Byte) (s : State) : (s.setSreg v).resets = s.resets := rfl
@[simp] theorem setSreg_cycles (v : Byte) (s : State) : (s.setSreg v).cycles = s.cycles := rfl
@[simp] theorem setSreg_reg (v : Byte) (j : Reg) (s : State) : ((s.setSreg v).reg j) = s.reg j := rfl
@[simp] theorem setSreg_ramByte (v : Byte) (a : Nat) (s : State) : ((s.setSreg v).ramByte a) = s.ramByte a := rfl
@[simp] theorem setSreg_flashByte (v : Byte) (a : Nat) (s : State) : ((s.setSreg v).flashByte a) = s.flashByte a := rfl
@[simp] theorem setSreg_progWord (v : Byte) (w' : Word) (s : State) : ((s.setSreg v).progWord w') = s.progWord w' := rfl
@[simp] theorem setSreg_progByte (v : Byte) (a : Nat) (s : State) : ((s.setSreg v).progByte a) = s.progByte a := rfl
@[simp] theorem setSreg_pair (v : Byte) (j : Reg) (s : State) : ((s.setSreg v).pair j) = s.pair j := rfl
@[simp] theorem setSreg_ptr (v : Byte) (q : Ptr) (s : State) : ((s.setSreg v).ptr q) = s.ptr q := rfl
@[simp] theorem setSreg_freeByte (v : Byte) (s : State) : (s.setSreg v).freeByte = s.freeByte := rfl
@[simp] theorem setSreg_freeBit (v : Byte) (s : State) : (s.setSreg v).freeBit = s.freeBit := rfl
@[simp] theorem setSreg_pending (v : Byte) (s : State) : (s.setSreg v).pending = s.pending := rfl

/-! ### setSp -/

@[simp] theorem setSp_regs (w : Word) (s : State) : (s.setSp w).regs = s.regs := rfl
@[simp] theorem setSp_pc (w : Word) (s : State) : (s.setSp w).pc = s.pc := rfl
@[simp] theorem setSp_sreg (w : Word) (s : State) : (s.setSp w).sreg = s.sreg := rfl
@[simp] theorem setSp_sp (w : Word) (s : State) : (s.setSp w).sp = w := rfl
@[simp] theorem setSp_rampz (w : Word) (s : State) : (s.setSp w).rampz = s.rampz := rfl
@[simp] theorem setSp_ram (w : Word) (s : State) : (s.setSp w).ram = s.ram := rfl
@[simp] theorem setSp_flash (w : Word) (s : State) : (s.setSp w).flash = s.flash := rfl
@[simp] theorem setSp_inhibit (w : Word) (s : State) : (s.setSp w).inhibit = s.inhibit := rfl
@[simp] theorem setSp_asleep (w : Word) (s : State) : (s.setSp w).asleep = s.asleep := rfl
@[simp] theorem setSp_par (w : Word) (s : State) : (s.setSp w).par = s.par := rfl
@[simp] theorem setSp_pins (w : Word) (s : State) : (s.setSp w).pins = s.pins := rfl
@[simp] theorem setSp_inputs (w : Word) (s : State) : (s.setSp w).inputs = s.inputs := rfl
@[simp] theorem setSp_devIn (w : Word) (s : State) : (s.setSp w).devIn = s.devIn := rfl
@[simp] theorem setSp_trace (w : Word) (s : State) : (s.setSp w).trace = s.trace := rfl
@[simp] theorem setSp_freeCount (w : Word) (s : State) : (s.setSp w).freeCount = s.freeCount := rfl
@[simp] theorem setSp_resets (w : Word) (s : State) : (s.setSp w).resets = s.resets := rfl
@[simp] theorem setSp_cycles (w : Word) (s : State) : (s.setSp w).cycles = s.cycles := rfl
@[simp] theorem setSp_reg (w : Word) (j : Reg) (s : State) : ((s.setSp w).reg j) = s.reg j := rfl
@[simp] theorem setSp_flag (w : Word) (n : BitNo) (s : State) : ((s.setSp w).flag n) = s.flag n := rfl
@[simp] theorem setSp_ramByte (w : Word) (a : Nat) (s : State) : ((s.setSp w).ramByte a) = s.ramByte a := rfl
@[simp] theorem setSp_flashByte (w : Word) (a : Nat) (s : State) : ((s.setSp w).flashByte a) = s.flashByte a := rfl
@[simp] theorem setSp_progWord (w : Word) (w' : Word) (s : State) : ((s.setSp w).progWord w') = s.progWord w' := rfl
@[simp] theorem setSp_progByte (w : Word) (a : Nat) (s : State) : ((s.setSp w).progByte a) = s.progByte a := rfl
@[simp] theorem setSp_pair (w : Word) (j : Reg) (s : State) : ((s.setSp w).pair j) = s.pair j := rfl
@[simp] theorem setSp_ptr (w : Word) (q : Ptr) (s : State) : ((s.setSp w).ptr q) = s.ptr q := rfl
@[simp] theorem setSp_freeByte (w : Word) (s : State) : (s.setSp w).freeByte = s.freeByte := rfl
@[simp] theorem setSp_freeBit (w : Word) (s : State) : (s.setSp w).freeBit = s.freeBit := rfl
@[simp] theorem setSp_pending (w : Word) (s : State) : (s.setSp w).pending = s.pending := rfl

/-! ### setRampz -/

@[simp] theorem setRampz_regs (v : Byte) (s : State) : (s.setRampz v).regs = s.regs := rfl
@[simp] theorem setRampz_pc (v : Byte) (s : State) : (s.setRampz v).pc = s.pc := rfl
@[simp] theorem setRampz_sreg (v : Byte) (s : State) : (s.setRampz v).sreg = s.sreg := rfl
@[simp] theorem setRampz_sp (v : Byte) (s : State) : (s.setRampz v).sp = s.sp := rfl
@[simp] theorem setRampz_rampz (v : Byte) (s : State) : (s.setRampz v).rampz = v := rfl
@[simp] theorem setRampz_ram (v : Byte) (s : State) : (s.setRampz v).ram = s.ram := rfl
@[simp] theorem setRampz_flash (v : Byte) (s : State) : (s.setRampz v).flash = s.flash := rfl
@[simp] theorem setRampz_inhibit (v : Byte) (s : State) : (s.setRampz v).inhibit = s.inhibit := rfl
@[simp] theorem setRampz_asleep (v : Byte) (s : State) : (s.setRampz v).asleep = s.asleep := rfl
@[simp] theorem setRampz_par (v : Byte) (s : State) : (s.setRampz v).par = s.par := rfl
@[simp] theorem setRampz_pins (v : Byte) (s : State) : (s.setRampz v).pins = s.pins := rfl
@[simp] theorem setRampz_inputs (v : Byte) (s : State) : (s.setRampz v).inputs = s.inputs := rfl
@[simp] theorem setRampz_devIn (v : Byte) (s : State) : (s.setRampz v).devIn = s.devIn := rfl
@[simp] theorem setRampz_trace (v : Byte) (s : State) : (s.setRampz v).trace = s.trace := rfl
@[simp] theorem setRampz_freeCount (v : Byte) (s : State) : (s.setRampz v).freeCount = s.freeCount := rfl
@[simp] theorem setRampz_resets (v : Byte) (s : State) : (s.setRampz v).resets = s.resets := rfl
@[simp] theorem setRampz_cycles (v : Byte) (s : State) : (s.setRampz v).cycles = s.cycles := rfl
@[simp] theorem setRampz_reg (v : Byte) (j : Reg) (s : State) : ((s.setRampz v).reg j) = s.reg j := rfl
@[simp] theorem setRampz_flag (v : Byte) (n : BitNo) (s : State) : ((s.setRampz v).flag n) = s.flag n := rfl
@[simp] theorem setRampz_ramByte (v : Byte) (a : Nat) (s : State) : ((s.setRampz v).ramByte a) = s.ramByte a := rfl
@[simp] theorem setRampz_flashByte (v : Byte) (a : Nat) (s : State) : ((s.setRampz v).flashByte a) = s.flashByte a := rfl
@[simp] theorem setRampz_progWord (v : Byte) (w' : Word) (s : State) : ((s.setRampz v).progWord w') = s.progWord w' := rfl
@[simp] theorem setRampz_progByte (v : Byte) (a : Nat) (s : State) : ((s.setRampz v).progByte a) = s.progByte a := rfl
@[simp] theorem setRampz_pair (v : Byte) (j : Reg) (s : State) : ((s.setRampz v).pair j) = s.pair j := rfl
@[simp] theorem setRampz_ptr (v : Byte) (q : Ptr) (s : State) : ((s.setRampz v).ptr q) = s.ptr q := rfl
@[simp] theorem setRampz_freeByte (v : Byte) (s : State) : (s.setRampz v).freeByte = s.freeByte := rfl
@[simp] theorem setRampz_freeBit (v : Byte) (s : State) : (s.setRampz v).freeBit = s.freeBit := rfl
@[simp] theorem setRampz_pending (v : Byte) (s : State) : (s.setRampz v).pending = s.pending := rfl

/-! ### setRam -/

@[simp] theorem setRam_regs (m : List Host.Cell) (s : State) : (s.setRam m).regs = s.regs := rfl
@[simp] theorem setRam_pc (m : List Host.Cell) (s : State) : (s.setRam m).pc = s.pc := rfl
@[simp] theorem setRam_sreg (m : List Host.Cell) (s : State) : (s.setRam m).sreg = s.sreg := rfl
@[simp] theorem setRam_sp (m : List Host.Cell) (s : State) : (s.setRam m).sp = s.sp := rfl
@[simp] theorem setRam_rampz (m : List Host.Cell) (s : State) : (s.setRam m).rampz = s.rampz := rfl
@[simp] theorem setRam_ram (m : List Host.Cell) (s : State) : (s.setRam m).ram = m := rfl
@[simp] theorem setRam_flash (m : List Host.Cell) (s : State) : (s.setRam m).flash = s.flash := rfl
@[simp] theorem setRam_inhibit (m : List Host.Cell) (s : State) : (s.setRam m).inhibit = s.inhibit := rfl
@[simp] theorem setRam_asleep (m : List Host.Cell) (s : State) : (s.setRam m).asleep = s.asleep := rfl
@[simp] theorem setRam_par (m : List Host.Cell) (s : State) : (s.setRam m).par = s.par := rfl
@[simp] theorem setRam_pins (m : List Host.Cell) (s : State) : (s.setRam m).pins = s.pins := rfl
@[simp] theorem setRam_inputs (m : List Host.Cell) (s : State) : (s.setRam m).inputs = s.inputs := rfl
@[simp] theorem setRam_devIn (m : List Host.Cell) (s : State) : (s.setRam m).devIn = s.devIn := rfl
@[simp] theorem setRam_trace (m : List Host.Cell) (s : State) : (s.setRam m).trace = s.trace := rfl
@[simp] theorem setRam_freeCount (m : List Host.Cell) (s : State) : (s.setRam m).freeCount = s.freeCount := rfl
@[simp] theorem setRam_resets (m : List Host.Cell) (s : State) : (s.setRam m).resets = s.resets := rfl
@[simp] theorem setRam_cycles (m : List Host.Cell) (s : State) : (s.setRam m).cycles = s.cycles := rfl
@[simp] theorem setRam_reg (m : List Host.Cell) (j : Reg) (s : State) : ((s.setRam m).reg j) = s.reg j := rfl
@[simp] theorem setRam_flag (m : List Host.Cell) (n : BitNo) (s : State) : ((s.setRam m).flag n) = s.flag n := rfl
@[simp] theorem setRam_flashByte (m : List Host.Cell) (a : Nat) (s : State) : ((s.setRam m).flashByte a) = s.flashByte a := rfl
@[simp] theorem setRam_progWord (m : List Host.Cell) (w' : Word) (s : State) : ((s.setRam m).progWord w') = s.progWord w' := rfl
@[simp] theorem setRam_progByte (m : List Host.Cell) (a : Nat) (s : State) : ((s.setRam m).progByte a) = s.progByte a := rfl
@[simp] theorem setRam_pair (m : List Host.Cell) (j : Reg) (s : State) : ((s.setRam m).pair j) = s.pair j := rfl
@[simp] theorem setRam_ptr (m : List Host.Cell) (q : Ptr) (s : State) : ((s.setRam m).ptr q) = s.ptr q := rfl
@[simp] theorem setRam_freeByte (m : List Host.Cell) (s : State) : (s.setRam m).freeByte = s.freeByte := rfl
@[simp] theorem setRam_freeBit (m : List Host.Cell) (s : State) : (s.setRam m).freeBit = s.freeBit := rfl
@[simp] theorem setRam_pending (m : List Host.Cell) (s : State) : (s.setRam m).pending = s.pending := rfl

/-! ### setFlash -/

@[simp] theorem setFlash_regs (m : List Host.Cell) (s : State) : (s.setFlash m).regs = s.regs := rfl
@[simp] theorem setFlash_pc (m : List Host.Cell) (s : State) : (s.setFlash m).pc = s.pc := rfl
@[simp] theorem setFlash_sreg (m : List Host.Cell) (s : State) : (s.setFlash m).sreg = s.sreg := rfl
@[simp] theorem setFlash_sp (m : List Host.Cell) (s : State) : (s.setFlash m).sp = s.sp := rfl
@[simp] theorem setFlash_rampz (m : List Host.Cell) (s : State) : (s.setFlash m).rampz = s.rampz := rfl
@[simp] theorem setFlash_ram (m : List Host.Cell) (s : State) : (s.setFlash m).ram = s.ram := rfl
@[simp] theorem setFlash_flash (m : List Host.Cell) (s : State) : (s.setFlash m).flash = m := rfl
@[simp] theorem setFlash_inhibit (m : List Host.Cell) (s : State) : (s.setFlash m).inhibit = s.inhibit := rfl
@[simp] theorem setFlash_asleep (m : List Host.Cell) (s : State) : (s.setFlash m).asleep = s.asleep := rfl
@[simp] theorem setFlash_par (m : List Host.Cell) (s : State) : (s.setFlash m).par = s.par := rfl
@[simp] theorem setFlash_pins (m : List Host.Cell) (s : State) : (s.setFlash m).pins = s.pins := rfl
@[simp] theorem setFlash_inputs (m : List Host.Cell) (s : State) : (s.setFlash m).inputs = s.inputs := rfl
@[simp] theorem setFlash_devIn (m : List Host.Cell) (s : State) : (s.setFlash m).devIn = s.devIn := rfl
@[simp] theorem setFlash_trace (m : List Host.Cell) (s : State) : (s.setFlash m).trace = s.trace := rfl
@[simp] theorem setFlash_freeCount (m : List Host.Cell) (s : State) : (s.setFlash m).freeCount = s.freeCount := rfl
@[simp] theorem setFlash_resets (m : List Host.Cell) (s : State) : (s.setFlash m).resets = s.resets := rfl
@[simp] theorem setFlash_cycles (m : List Host.Cell) (s : State) : (s.setFlash m).cycles = s.cycles := rfl
@[simp] theorem setFlash_reg (m : List Host.Cell) (j : Reg) (s : State) : ((s.setFlash m).reg j) = s.reg j := rfl
@[simp] theorem setFlash_flag (m : List Host.Cell) (n : BitNo) (s : State) : ((s.setFlash m).flag n) = s.flag n := rfl
@[simp] theorem setFlash_ramByte (m : List Host.Cell) (a : Nat) (s : State) : ((s.setFlash m).ramByte a) = s.ramByte a := rfl
@[simp] theorem setFlash_pair (m : List Host.Cell) (j : Reg) (s : State) : ((s.setFlash m).pair j) = s.pair j := rfl
@[simp] theorem setFlash_ptr (m : List Host.Cell) (q : Ptr) (s : State) : ((s.setFlash m).ptr q) = s.ptr q := rfl
@[simp] theorem setFlash_freeByte (m : List Host.Cell) (s : State) : (s.setFlash m).freeByte = s.freeByte := rfl
@[simp] theorem setFlash_freeBit (m : List Host.Cell) (s : State) : (s.setFlash m).freeBit = s.freeBit := rfl
@[simp] theorem setFlash_pending (m : List Host.Cell) (s : State) : (s.setFlash m).pending = s.pending := rfl

/-! ### setInhibit -/

@[simp] theorem setInhibit_regs (b : Bool) (s : State) : (s.setInhibit b).regs = s.regs := rfl
@[simp] theorem setInhibit_pc (b : Bool) (s : State) : (s.setInhibit b).pc = s.pc := rfl
@[simp] theorem setInhibit_sreg (b : Bool) (s : State) : (s.setInhibit b).sreg = s.sreg := rfl
@[simp] theorem setInhibit_sp (b : Bool) (s : State) : (s.setInhibit b).sp = s.sp := rfl
@[simp] theorem setInhibit_rampz (b : Bool) (s : State) : (s.setInhibit b).rampz = s.rampz := rfl
@[simp] theorem setInhibit_ram (b : Bool) (s : State) : (s.setInhibit b).ram = s.ram := rfl
@[simp] theorem setInhibit_flash (b : Bool) (s : State) : (s.setInhibit b).flash = s.flash := rfl
@[simp] theorem setInhibit_inhibit (b : Bool) (s : State) : (s.setInhibit b).inhibit = b := rfl
@[simp] theorem setInhibit_asleep (b : Bool) (s : State) : (s.setInhibit b).asleep = s.asleep := rfl
@[simp] theorem setInhibit_par (b : Bool) (s : State) : (s.setInhibit b).par = s.par := rfl
@[simp] theorem setInhibit_pins (b : Bool) (s : State) : (s.setInhibit b).pins = s.pins := rfl
@[simp] theorem setInhibit_inputs (b : Bool) (s : State) : (s.setInhibit b).inputs = s.inputs := rfl
@[simp] theorem setInhibit_devIn (b : Bool) (s : State) : (s.setInhibit b).devIn = s.devIn := rfl
@[simp] theorem setInhibit_trace (b : Bool) (s : State) : (s.setInhibit b).trace = s.trace := rfl
@[simp] theorem setInhibit_freeCount (b : Bool) (s : State) : (s.setInhibit b).freeCount = s.freeCount := rfl
@[simp] theorem setInhibit_resets (b : Bool) (s : State) : (s.setInhibit b).resets = s.resets := rfl
@[simp] theorem setInhibit_cycles (b : Bool) (s : State) : (s.setInhibit b).cycles = s.cycles := rfl
@[simp] theorem setInhibit_reg (b : Bool) (j : Reg) (s : State) : ((s.setInhibit b).reg j) = s.reg j := rfl
@[simp] theorem setInhibit_flag (b : Bool) (n : BitNo) (s : State) : ((s.setInhibit b).flag n) = s.flag n := rfl
@[simp] theorem setInhibit_ramByte (b : Bool) (a : Nat) (s : State) : ((s.setInhibit b).ramByte a) = s.ramByte a := rfl
@[simp] theorem setInhibit_flashByte (b : Bool) (a : Nat) (s : State) : ((s.setInhibit b).flashByte a) = s.flashByte a := rfl
@[simp] theorem setInhibit_progWord (b : Bool) (w' : Word) (s : State) : ((s.setInhibit b).progWord w') = s.progWord w' := rfl
@[simp] theorem setInhibit_progByte (b : Bool) (a : Nat) (s : State) : ((s.setInhibit b).progByte a) = s.progByte a := rfl
@[simp] theorem setInhibit_pair (b : Bool) (j : Reg) (s : State) : ((s.setInhibit b).pair j) = s.pair j := rfl
@[simp] theorem setInhibit_ptr (b : Bool) (q : Ptr) (s : State) : ((s.setInhibit b).ptr q) = s.ptr q := rfl
@[simp] theorem setInhibit_freeByte (b : Bool) (s : State) : (s.setInhibit b).freeByte = s.freeByte := rfl
@[simp] theorem setInhibit_freeBit (b : Bool) (s : State) : (s.setInhibit b).freeBit = s.freeBit := rfl
@[simp] theorem setInhibit_pending (b : Bool) (s : State) : (s.setInhibit b).pending = s.pending := rfl

/-! ### setAsleep -/

@[simp] theorem setAsleep_regs (b : Bool) (s : State) : (s.setAsleep b).regs = s.regs := rfl
@[simp] theorem setAsleep_pc (b : Bool) (s : State) : (s.setAsleep b).pc = s.pc := rfl
@[simp] theorem setAsleep_sreg (b : Bool) (s : State) : (s.setAsleep b).sreg = s.sreg := rfl
@[simp] theorem setAsleep_sp (b : Bool) (s : State) : (s.setAsleep b).sp = s.sp := rfl
@[simp] theorem setAsleep_rampz (b : Bool) (s : State) : (s.setAsleep b).rampz = s.rampz := rfl
@[simp] theorem setAsleep_ram (b : Bool) (s : State) : (s.setAsleep b).ram = s.ram := rfl
@[simp] theorem setAsleep_flash (b : Bool) (s : State) : (s.setAsleep b).flash = s.flash := rfl
@[simp] theorem setAsleep_inhibit (b : Bool) (s : State) : (s.setAsleep b).inhibit = s.inhibit := rfl
@[simp] theorem setAsleep_asleep (b : Bool) (s : State) : (s.setAsleep b).asleep = b := rfl
@[simp] theorem setAsleep_par (b : Bool) (s : State) : (s.setAsleep b).par = s.par := rfl
@[simp] theorem setAsleep_pins (b : Bool) (s : State) : (s.setAsleep b).pins = s.pins := rfl
@[simp] theorem setAsleep_inputs (b : Bool) (s : State) : (s.setAsleep b).inputs = s.inputs := rfl
@[simp] theorem setAsleep_devIn (b : Bool) (s : State) : (s.setAsleep b).devIn = s.devIn := rfl
@[simp] theorem setAsleep_trace (b : Bool) (s : State) : (s.setAsleep b).trace = s.trace := rfl
@[simp] theorem setAsleep_freeCount (b : Bool) (s : State) : (s.setAsleep b).freeCount = s.freeCount := rfl
@[simp] theorem setAsleep_resets (b : Bool) (s : State) : (s.setAsleep b).resets = s.resets := rfl
@[simp] theorem setAsleep_cycles (b : Bool) (s : State) : (s.setAsleep b).cycles = s.cycles := rfl
@[simp] theorem setAsleep_reg (b : Bool) (j : Reg) (s : State) : ((s.setAsleep b).reg j) = s.reg j := rfl
@[simp] theorem setAsleep_flag (b : Bool) (n : BitNo) (s : State) : ((s.setAsleep b).flag n) = s.flag n := rfl
@[simp] theorem setAsleep_ramByte (b : Bool) (a : Nat) (s : State) : ((s.setAsleep b).ramByte a) = s.ramByte a := rfl
@[simp] theorem setAsleep_flashByte (b : Bool) (a : Nat) (s : State) : ((s.setAsleep b).flashByte a) = s.flashByte a := rfl
@[simp] theorem setAsleep_progWord (b : Bool) (w' : Word) (s : State) : ((s.setAsleep b).progWord w') = s.progWord w' := rfl
@[simp] theorem setAsleep_progByte (b : Bool) (a : Nat) (s : State) : ((s.setAsleep b).progByte a) = s.progByte a := rfl
@[simp] theorem setAsleep_pair (b : Bool) (j : Reg) (s : State) : ((s.setAsleep b).pair j) = s.pair j := rfl
@[simp] theorem setAsleep_ptr (b : Bool) (q : Ptr) (s : State) : ((s.setAsleep b).ptr q) = s.ptr q := rfl
@[simp] theorem setAsleep_freeByte (b : Bool) (s : State) : (s.setAsleep b).freeByte = s.freeByte := rfl
@[simp] theorem setAsleep_freeBit (b : Bool) (s : State) : (s.setAsleep b).freeBit = s.freeBit := rfl
@[simp] theorem setAsleep_pending (b : Bool) (s : State) : (s.setAsleep b).pending = s.pending := rfl

/-! ### setDevIn -/

@[simp] theorem setDevIn_regs (l : List Byte) (s : State) : (s.setDevIn l).regs = s.regs := rfl
@[simp] theorem setDevIn_pc (l : List Byte) (s : State) : (s.setDevIn l).pc = s.pc := rfl
@[simp] theorem setDevIn_sreg (l : List Byte) (s : State) : (s.setDevIn l).sreg = s.sreg := rfl
@[simp] theorem setDevIn_sp (l : List Byte) (s : State) : (s.setDevIn l).sp = s.sp := rfl
@[simp] theorem setDevIn_rampz (l : List Byte) (s : State) : (s.setDevIn l).rampz = s.rampz := rfl
@[simp] theorem setDevIn_ram (l : List Byte) (s : State) : (s.setDevIn l).ram = s.ram := rfl
@[simp] theorem setDevIn_flash (l : List Byte) (s : State) : (s.setDevIn l).flash = s.flash := rfl
@[simp] theorem setDevIn_inhibit (l : List Byte) (s : State) : (s.setDevIn l).inhibit = s.inhibit := rfl
@[simp] theorem setDevIn_asleep (l : List Byte) (s : State) : (s.setDevIn l).asleep = s.asleep := rfl
@[simp] theorem setDevIn_par (l : List Byte) (s : State) : (s.setDevIn l).par = s.par := rfl
@[simp] theorem setDevIn_pins (l : List Byte) (s : State) : (s.setDevIn l).pins = s.pins := rfl
@[simp] theorem setDevIn_inputs (l : List Byte) (s : State) : (s.setDevIn l).inputs = s.inputs := rfl
@[simp] theorem setDevIn_devIn (l : List Byte) (s : State) : (s.setDevIn l).devIn = l := rfl
@[simp] theorem setDevIn_trace (l : List Byte) (s : State) : (s.setDevIn l).trace = s.trace := rfl
@[simp] theorem setDevIn_freeCount (l : List Byte) (s : State) : (s.setDevIn l).freeCount = s.freeCount := rfl
@[simp] theorem setDevIn_resets (l : List Byte) (s : State) : (s.setDevIn l).resets = s.resets := rfl
@[simp] theorem setDevIn_cycles (l : List Byte) (s : State) : (s.setDevIn l).cycles = s.cycles := rfl
@[simp] theorem setDevIn_reg (l : List Byte) (j : Reg) (s : State) : ((s.setDevIn l).reg j) = s.reg j := rfl
@[simp] theorem setDevIn_flag (l : List Byte) (n : BitNo) (s : State) : ((s.setDevIn l).flag n) = s.flag n := rfl
@[simp] theorem setDevIn_ramByte (l : List Byte) (a : Nat) (s : State) : ((s.setDevIn l).ramByte a) = s.ramByte a := rfl
@[simp] theorem setDevIn_flashByte (l : List Byte) (a : Nat) (s : State) : ((s.setDevIn l).flashByte a) = s.flashByte a := rfl
@[simp] theorem setDevIn_progWord (l : List Byte) (w' : Word) (s : State) : ((s.setDevIn l).progWord w') = s.progWord w' := rfl
@[simp] theorem setDevIn_progByte (l : List Byte) (a : Nat) (s : State) : ((s.setDevIn l).progByte a) = s.progByte a := rfl
@[simp] theorem setDevIn_pair (l : List Byte) (j : Reg) (s : State) : ((s.setDevIn l).pair j) = s.pair j := rfl
@[simp] theorem setDevIn_ptr (l : List Byte) (q : Ptr) (s : State) : ((s.setDevIn l).ptr q) = s.ptr q := rfl
@[simp] theorem setDevIn_freeByte (l : List Byte) (s : State) : (s.setDevIn l).freeByte = s.freeByte := rfl
@[simp] theorem setDevIn_freeBit (l : List Byte) (s : State) : (s.setDevIn l).freeBit = s.freeBit := rfl
@[simp] theorem setDevIn_pending (l : List Byte) (s : State) : (s.setDevIn l).pending = s.pending := rfl

/-! ### record -/

@[simp] theorem record_regs (e : Event) (s : State) : (s.record e).regs = s.regs := rfl
@[simp] theorem record_pc (e : Event) (s : State) : (s.record e).pc = s.pc := rfl
@[simp] theorem record_sreg (e : Event) (s : State) : (s.record e).sreg = s.sreg := rfl
@[simp] theorem record_sp (e : Event) (s : State) : (s.record e).sp = s.sp := rfl
@[simp] theorem record_rampz (e : Event) (s : State) : (s.record e).rampz = s.rampz := rfl
@[simp] theorem record_ram (e : Event) (s : State) : (s.record e).ram = s.ram := rfl
@[simp] theorem record_flash (e : Event) (s : State) : (s.record e).flash = s.flash := rfl
@[simp] theorem record_inhibit (e : Event) (s : State) : (s.record e).inhibit = s.inhibit := rfl
@[simp] theorem record_asleep (e : Event) (s : State) : (s.record e).asleep = s.asleep := rfl
@[simp] theorem record_par (e : Event) (s : State) : (s.record e).par = s.par := rfl
@[simp] theorem record_pins (e : Event) (s : State) : (s.record e).pins = s.pins := rfl
@[simp] theorem record_inputs (e : Event) (s : State) : (s.record e).inputs = s.inputs := rfl
@[simp] theorem record_devIn (e : Event) (s : State) : (s.record e).devIn = s.devIn := rfl
@[simp] theorem record_trace (e : Event) (s : State) : (s.record e).trace = e :: s.trace := rfl
@[simp] theorem record_freeCount (e : Event) (s : State) : (s.record e).freeCount = s.freeCount := rfl
@[simp] theorem record_resets (e : Event) (s : State) : (s.record e).resets = s.resets := rfl
@[simp] theorem record_cycles (e : Event) (s : State) : (s.record e).cycles = s.cycles := rfl
@[simp] theorem record_reg (e : Event) (j : Reg) (s : State) : ((s.record e).reg j) = s.reg j := rfl
@[simp] theorem record_flag (e : Event) (n : BitNo) (s : State) : ((s.record e).flag n) = s.flag n := rfl
@[simp] theorem record_ramByte (e : Event) (a : Nat) (s : State) : ((s.record e).ramByte a) = s.ramByte a := rfl
@[simp] theorem record_flashByte (e : Event) (a : Nat) (s : State) : ((s.record e).flashByte a) = s.flashByte a := rfl
@[simp] theorem record_progWord (e : Event) (w' : Word) (s : State) : ((s.record e).progWord w') = s.progWord w' := rfl
@[simp] theorem record_progByte (e : Event) (a : Nat) (s : State) : ((s.record e).progByte a) = s.progByte a := rfl
@[simp] theorem record_pair (e : Event) (j : Reg) (s : State) : ((s.record e).pair j) = s.pair j := rfl
@[simp] theorem record_ptr (e : Event) (q : Ptr) (s : State) : ((s.record e).ptr q) = s.ptr q := rfl
@[simp] theorem record_freeByte (e : Event) (s : State) : (s.record e).freeByte = s.freeByte := rfl
@[simp] theorem record_freeBit (e : Event) (s : State) : (s.record e).freeBit = s.freeBit := rfl
@[simp] theorem record_pending (e : Event) (s : State) : (s.record e).pending = s.pending := rfl

/-! ### addCycles -/

@[simp] theorem addCycles_regs (c : Nat) (s : State) : (s.addCycles c).regs = s.regs := rfl
@[simp] theorem addCycles_pc (c : Nat) (s : State) : (s.addCycles c).pc = s.pc := rfl
@[simp] theorem addCycles_sreg (c : Nat) (s : State) : (s.addCycles c).sreg = s.sreg := rfl
@[simp] theorem addCycles_sp (c : Nat) (s : State) : (s.addCycles c).sp = s.sp := rfl
@[simp] theorem addCycles_rampz (c : Nat) (s : State) : (s.addCycles c).rampz = s.rampz := rfl
@[simp] theorem addCycles_ram (c : Nat) (s : State) : (s.addCycles c).ram = s.ram := rfl
@[simp] theorem addCycles_flash (c : Nat) (s : State) : (s.addCycles c).flash = s.flash := rfl
@[simp] theorem addCycles_inhibit (c : Nat) (s : State) : (s.addCycles c).inhibit = s.inhibit := rfl
@[simp] theorem addCycles_asleep (c : Nat) (s : State) : (s.addCycles c).asleep = s.asleep := rfl
@[simp] theorem addCycles_par (c : Nat) (s : State) : (s.addCycles c).par = s.par := rfl
@[simp] theorem addCycles_pins (c : Nat) (s : State) : (s.addCycles c).pins = s.pins := rfl
@[simp] theorem addCycles_inputs (c : Nat) (s : State) : (s.addCycles c).inputs = s.inputs := rfl
@[simp] theorem addCycles_devIn (c : Nat) (s : State) : (s.addCycles c).devIn = s.devIn := rfl
@[simp] theorem addCycles_trace (c : Nat) (s : State) : (s.addCycles c).trace = s.trace := rfl
@[simp] theorem addCycles_freeCount (c : Nat) (s : State) : (s.addCycles c).freeCount = s.freeCount := rfl
@[simp] theorem addCycles_resets (c : Nat) (s : State) : (s.addCycles c).resets = s.resets := rfl
@[simp] theorem addCycles_cycles (c : Nat) (s : State) : (s.addCycles c).cycles = s.cycles + c := rfl
@[simp] theorem addCycles_reg (c : Nat) (j : Reg) (s : State) : ((s.addCycles c).reg j) = s.reg j := rfl
@[simp] theorem addCycles_flag (c : Nat) (n : BitNo) (s : State) : ((s.addCycles c).flag n) = s.flag n := rfl
@[simp] theorem addCycles_ramByte (c : Nat) (a : Nat) (s : State) : ((s.addCycles c).ramByte a) = s.ramByte a := rfl
@[simp] theorem addCycles_flashByte (c : Nat) (a : Nat) (s : State) : ((s.addCycles c).flashByte a) = s.flashByte a := rfl
@[simp] theorem addCycles_progWord (c : Nat) (w' : Word) (s : State) : ((s.addCycles c).progWord w') = s.progWord w' := rfl
@[simp] theorem addCycles_progByte (c : Nat) (a : Nat) (s : State) : ((s.addCycles c).progByte a) = s.progByte a := rfl
@[simp] theorem addCycles_pair (c : Nat) (j : Reg) (s : State) : ((s.addCycles c).pair j) = s.pair j := rfl
@[simp] theorem addCycles_ptr (c : Nat) (q : Ptr) (s : State) : ((s.addCycles c).ptr q) = s.ptr q := rfl
@[simp] theorem addCycles_freeByte (c : Nat) (s : State) : (s.addCycles c).freeByte = s.freeByte := rfl
@[simp] theorem addCycles_freeBit (c : Nat) (s : State) : (s.addCycles c).freeBit = s.freeBit := rfl
@[simp] theorem addCycles_pending (c : Nat) (s : State) : (s.addCycles c).pending = s.pending := rfl

/-! ### useFree -/

@[simp] theorem useFree_regs (s : State) : s.useFree.regs = s.regs := rfl
@[simp] theorem useFree_pc (s : State) : s.useFree.pc = s.pc := rfl
@[simp] theorem useFree_sreg (s : State) : s.useFree.sreg = s.sreg := rfl
@[simp] theorem useFree_sp (s : State) : s.useFree.sp = s.sp := rfl
@[simp] theorem useFree_rampz (s : State) : s.useFree.rampz = s.rampz := rfl
@[simp] theorem useFree_ram (s : State) : s.useFree.ram = s.ram := rfl
@[simp] theorem useFree_flash (s : State) : s.useFree.flash = s.flash := rfl
@[simp] theorem useFree_inhibit (s : State) : s.useFree.inhibit = s.inhibit := rfl
@[simp] theorem useFree_asleep (s : State) : s.useFree.asleep = s.asleep := rfl
@[simp] theorem useFree_par (s : State) : s.useFree.par = s.par := rfl
@[simp] theorem useFree_pins (s : State) : s.useFree.pins = s.pins := rfl
@[simp] theorem useFree_inputs (s : State) : s.useFree.inputs = s.inputs := rfl
@[simp] theorem useFree_devIn (s : State) : s.useFree.devIn = s.devIn := rfl
@[simp] theorem useFree_trace (s : State) : s.useFree.trace = s.trace := rfl
@[simp] theorem useFree_freeCount (s : State) : s.useFree.freeCount = s.freeCount + 1 := rfl
@[simp] theorem useFree_resets (s : State) : s.useFree.resets = s.resets := rfl
@[simp] theorem useFree_cycles (s : State) : s.useFree.cycles = s.cycles := rfl
@[simp] theorem useFree_reg (j : Reg) (s : State) : (s.useFree.reg j) = s.reg j := rfl
@[simp] theorem useFree_flag (n : BitNo) (s : State) : (s.useFree.flag n) = s.flag n := rfl
@[simp] theorem useFree_ramByte (a : Nat) (s : State) : (s.useFree.ramByte a) = s.ramByte a := rfl
@[simp] theorem useFree_flashByte (a : Nat) (s : State) : (s.useFree.flashByte a) = s.flashByte a := rfl
@[simp] theorem useFree_progWord (w' : Word) (s : State) : (s.useFree.progWord w') = s.progWord w' := rfl
@[simp] theorem useFree_progByte (a : Nat) (s : State) : (s.useFree.progByte a) = s.progByte a := rfl
@[simp] theorem useFree_pair (j : Reg) (s : State) : (s.useFree.pair j) = s.pair j := rfl
@[simp] theorem useFree_ptr (q : Ptr) (s : State) : (s.useFree.ptr q) = s.ptr q := rfl
@[simp] theorem useFree_pending (s : State) : s.useFree.pending = s.pending := rfl

/-! ### advance -/

@[simp] theorem advance_regs (len cyc : Nat) (s : State) : (s.advance len cyc).regs = s.regs := rfl
@[simp] theorem advance_pc (len cyc : Nat) (s : State) : (s.advance len cyc).pc = s.pc + BitVec.ofNat 16 len := rfl
@[simp] theorem advance_sreg (len cyc : Nat) (s : State) : (s.advance len cyc).sreg = s.sreg := rfl
@[simp] theorem advance_sp (len cyc : Nat) (s : State) : (s.advance len cyc).sp = s.sp := rfl
@[simp] theorem advance_rampz (len cyc : Nat) (s : State) : (s.advance len cyc).rampz = s.rampz := rfl
@[simp] theorem advance_ram (len cyc : Nat) (s : State) : (s.advance len cyc).ram = s.ram := rfl
@[simp] theorem advance_flash (len cyc : Nat) (s : State) : (s.advance len cyc).flash = s.flash := rfl
@[simp] theorem advance_inhibit (len cyc : Nat) (s : State) : (s.advance len cyc).inhibit = s.inhibit := rfl
@[simp] theorem advance_asleep (len cyc : Nat) (s : State) : (s.advance len cyc).asleep = s.asleep := rfl
@[simp] theorem advance_par (len cyc : Nat) (s : State) : (s.advance len cyc).par = s.par := rfl
@[simp] theorem advance_pins (len cyc : Nat) (s : State) : (s.advance len cyc).pins = s.pins := rfl
@[simp] theorem advance_inputs (len cyc : Nat) (s : State) : (s.advance len cyc).inputs = s.inputs := rfl
@[simp] theorem advance_devIn (len cyc : Nat) (s : State) : (s.advance len cyc).devIn = s.devIn := rfl
@[simp] theorem advance_trace (len cyc : Nat) (s : State) : (s.advance len cyc).trace = s.trace := rfl
@[simp] theorem advance_freeCount (len cyc : Nat) (s : State) : (s.advance len cyc).freeCount = s.freeCount := rfl
@[simp] theorem advance_resets (len cyc : Nat) (s : State) : (s.advance len cyc).resets = s.resets := rfl
@[simp] theorem advance_cycles (len cyc : Nat) (s : State) : (s.advance len cyc).cycles = s.cycles + cyc := rfl
@[simp] theorem advance_reg (len cyc : Nat) (j : Reg) (s : State) : ((s.advance len cyc).reg j) = s.reg j := rfl
@[simp] theorem advance_flag (len cyc : Nat) (n : BitNo) (s : State) : ((s.advance len cyc).flag n) = s.flag n := rfl
@[simp] theorem advance_ramByte (len cyc : Nat) (a : Nat) (s : State) : ((s.advance len cyc).ramByte a) = s.ramByte a := rfl
@[simp] theorem advance_flashByte (len cyc : Nat) (a : Nat) (s : State) : ((s.advance len cyc).flashByte a) = s.flashByte a := rfl
@[simp] theorem advance_progWord (len cyc : Nat) (w' : Word) (s : State) : ((s.advance len cyc).progWord w') = s.progWord w' := rfl
@[simp] theorem advance_progByte (len cyc : Nat) (a : Nat) (s : State) : ((s.advance len cyc).progByte a) = s.progByte a := rfl
@[simp] theorem advance_pair (len cyc : Nat) (j : Reg) (s : State) : ((s.advance len cyc).pair j) = s.pair j := rfl
@[simp] theorem advance_ptr (len cyc : Nat) (q : Ptr) (s : State) : ((s.advance len cyc).ptr q) = s.ptr q := rfl
@[simp] theorem advance_freeByte (len cyc : Nat) (s : State) : (s.advance len cyc).freeByte = s.freeByte := rfl
@[simp] theorem advance_freeBit (len cyc : Nat) (s : State) : (s.advance len cyc).freeBit = s.freeBit := rfl
@[simp] theorem advance_pending (len cyc : Nat) (s : State) : (s.advance len cyc).pending = s.pending := rfl

/-! ### jump -/

@[simp] theorem jump_regs (w : Word) (cyc : Nat) (s : State) : (s.jump w cyc).regs = s.regs := rfl
@[simp] theorem jump_pc (w : Word) (cyc : Nat) (s : State) : (s.jump w cyc).pc = w := rfl
@[simp] theorem jump_sreg (w : Word) (cyc : Nat) (s : State) : (s.jump w cyc).sreg = s.sreg := rfl
@[simp] theorem jump_sp (w : Word) (cyc : Nat) (s : State) : (s.jump w cyc).sp = s.sp := rfl
@[simp] theorem jump_rampz (w : Word) (cyc : Nat) (s : State) : (s.jump w cyc).rampz = s.rampz := rfl
@[simp] theorem jump_ram (w : Word) (cyc : Nat) (s : State) : (s.jump w cyc).ram = s.ram := rfl
@[simp] theorem jump_flash (w : Word) (cyc : Nat) (s : State) : (s.jump w cyc).flash = s.flash := rfl
@[simp] theorem jump_inhibit (w : Word) (cyc : Nat) (s : State) : (s.jump w cyc).inhibit = s.inhibit := rfl
@[simp] theorem jump_asleep (w : Word) (cyc : Nat) (s : State) : (s.jump w cyc).asleep = s.asleep := rfl
@[simp] theorem jump_par (w : Word) (cyc : Nat) (s : State) : (s.jump w cyc).par = s.par := rfl
@[simp] theorem jump_pins (w : Word) (cyc : Nat) (s : State) : (s.jump w cyc).pins = s.pins := rfl
@[simp] theorem jump_inputs (w : Word) (cyc : Nat) (s : State) : (s.jump w cyc).inputs = s.inputs := rfl
@[simp] theorem jump_devIn (w : Word) (cyc : Nat) (s : State) : (s.jump w cyc).devIn = s.devIn := rfl
@[simp] theorem jump_trace (w : Word) (cyc : Nat) (s : State) : (s.jump w cyc).trace = s.trace := rfl
@[simp] theorem jump_freeCount (w : Word) (cyc : Nat) (s : State) : (s.jump w cyc).freeCount = s.freeCount := rfl
@[simp] theorem jump_resets (w : Word) (cyc : Nat) (s : State) : (s.jump w cyc).resets = s.resets := rfl
@[simp] theorem jump_cycles (w : Word) (cyc : Nat) (s : State) : (s.jump w cyc).cycles = s.cycles + cyc := rfl
@[simp] theorem jump_reg (w : Word) (cyc : Nat) (j : Reg) (s : State) : ((s.jump w cyc).reg j) = s.reg j := rfl
@[simp] theorem jump_flag (w : Word) (cyc : Nat) (n : BitNo) (s : State) : ((s.jump w cyc).flag n) = s.flag n := rfl
@[simp] theorem jump_ramByte (w : Word) (cyc : Nat) (a : Nat) (s : State) : ((s.jump w cyc).ramByte a) = s.ramByte a := rfl
@[simp] theorem jump_flashByte (w : Word) (cyc : Nat) (a : Nat) (s : State) : ((s.jump w cyc).flashByte a) = s.flashByte a := rfl
@[simp] theorem jump_progWord (w : Word) (cyc : Nat) (w' : Word) (s : State) : ((s.jump w cyc).progWord w') = s.progWord w' := rfl
@[simp] theorem jump_progByte (w : Word) (cyc : Nat) (a : Nat) (s : State) : ((s.jump w cyc).progByte a) = s.progByte a := rfl
@[simp] theorem jump_pair (w : Word) (cyc : Nat) (j : Reg) (s : State) : ((s.jump w cyc).pair j) = s.pair j := rfl
@[simp] theorem jump_ptr (w : Word) (cyc : Nat) (q : Ptr) (s : State) : ((s.jump w cyc).ptr q) = s.ptr q := rfl
@[simp] theorem jump_freeByte (w : Word) (cyc : Nat) (s : State) : (s.jump w cyc).freeByte = s.freeByte := rfl
@[simp] theorem jump_freeBit (w : Word) (cyc : Nat) (s : State) : (s.jump w cyc).freeBit = s.freeBit := rfl
@[simp] theorem jump_pending (w : Word) (cyc : Nat) (s : State) : (s.jump w cyc).pending = s.pending := rfl

/-! ### setPair -/

@[simp] theorem setPair_regs (i : Reg) (w : Word) (s : State) : (s.setPair i w).regs = (s.regs.set i.val (lowByte w)).set (i + 1).val (highByte w) := rfl
@[simp] theorem setPair_pc (i : Reg) (w : Word) (s : State) : (s.setPair i w).pc = s.pc := rfl
@[simp] theorem setPair_sreg (i : Reg) (w : Word) (s : State) : (s.setPair i w).sreg = s.sreg := rfl
@[simp] theorem setPair_sp (i : Reg) (w : Word) (s : State) : (s.setPair i w).sp = s.sp := rfl
@[simp] theorem setPair_rampz (i : Reg) (w : Word) (s : State) : (s.setPair i w).rampz = s.rampz := rfl
@[simp] theorem setPair_ram (i : Reg) (w : Word) (s : State) : (s.setPair i w).ram = s.ram := rfl
@[simp] theorem setPair_flash (i : Reg) (w : Word) (s : State) : (s.setPair i w).flash = s.flash := rfl
@[simp] theorem setPair_inhibit (i : Reg) (w : Word) (s : State) : (s.setPair i w).inhibit = s.inhibit := rfl
@[simp] theorem setPair_asleep (i : Reg) (w : Word) (s : State) : (s.setPair i w).asleep = s.asleep := rfl
@[simp] theorem setPair_par (i : Reg) (w : Word) (s : State) : (s.setPair i w).par = s.par := rfl
@[simp] theorem setPair_pins (i : Reg) (w : Word) (s : State) : (s.setPair i w).pins = s.pins := rfl
@[simp] theorem setPair_inputs (i : Reg) (w : Word) (s : State) : (s.setPair i w).inputs = s.inputs := rfl
@[simp] theorem setPair_devIn (i : Reg) (w : Word) (s : State) : (s.setPair i w).devIn = s.devIn := rfl
@[simp] theorem setPair_trace (i : Reg) (w : Word) (s : State) : (s.setPair i w).trace = s.trace := rfl
@[simp] theorem setPair_freeCount (i : Reg) (w : Word) (s : State) : (s.setPair i w).freeCount = s.freeCount := rfl
@[simp] theorem setPair_resets (i : Reg) (w : Word) (s : State) : (s.setPair i w).resets = s.resets := rfl
@[simp] theorem setPair_cycles (i : Reg) (w : Word) (s : State) : (s.setPair i w).cycles = s.cycles := rfl
@[simp] theorem setPair_flag (i : Reg) (w : Word) (n : BitNo) (s : State) : ((s.setPair i w).flag n) = s.flag n := rfl
@[simp] theorem setPair_ramByte (i : Reg) (w : Word) (a : Nat) (s : State) : ((s.setPair i w).ramByte a) = s.ramByte a := rfl
@[simp] theorem setPair_flashByte (i : Reg) (w : Word) (a : Nat) (s : State) : ((s.setPair i w).flashByte a) = s.flashByte a := rfl
@[simp] theorem setPair_progWord (i : Reg) (w : Word) (w' : Word) (s : State) : ((s.setPair i w).progWord w') = s.progWord w' := rfl
@[simp] theorem setPair_progByte (i : Reg) (w : Word) (a : Nat) (s : State) : ((s.setPair i w).progByte a) = s.progByte a := rfl
@[simp] theorem setPair_freeByte (i : Reg) (w : Word) (s : State) : (s.setPair i w).freeByte = s.freeByte := rfl
@[simp] theorem setPair_freeBit (i : Reg) (w : Word) (s : State) : (s.setPair i w).freeBit = s.freeBit := rfl
@[simp] theorem setPair_pending (i : Reg) (w : Word) (s : State) : (s.setPair i w).pending = s.pending := rfl

/-! ### setPtr -/

@[simp] theorem setPtr_regs (p : Ptr) (w : Word) (s : State) : (s.setPtr p w).regs = (s.regs.set p.lo.val (lowByte w)).set p.hi.val (highByte w) := rfl
@[simp] theorem setPtr_pc (p : Ptr) (w : Word) (s : State) : (s.setPtr p w).pc = s.pc := rfl
@[simp] theorem setPtr_sreg (p : Ptr) (w : Word) (s : State) : (s.setPtr p w).sreg = s.sreg := rfl
@[simp] theorem setPtr_sp (p : Ptr) (w : Word) (s : State) : (s.setPtr p w).sp = s.sp := rfl
@[simp] theorem setPtr_rampz (p : Ptr) (w : Word) (s : State) : (s.setPtr p w).rampz = s.rampz := rfl
@[simp] theorem setPtr_ram (p : Ptr) (w : Word) (s : State) : (s.setPtr p w).ram = s.ram := rfl
@[simp] theorem setPtr_flash (p : Ptr) (w : Word) (s : State) : (s.setPtr p w).flash = s.flash := rfl
@[simp] theorem setPtr_inhibit (p : Ptr) (w : Word) (s : State) : (s.setPtr p w).inhibit = s.inhibit := rfl
@[simp] theorem setPtr_asleep (p : Ptr) (w : Word) (s : State) : (s.setPtr p w).asleep = s.asleep := rfl
@[simp] theorem setPtr_par (p : Ptr) (w : Word) (s : State) : (s.setPtr p w).par = s.par := rfl
@[simp] theorem setPtr_pins (p : Ptr) (w : Word) (s : State) : (s.setPtr p w).pins = s.pins := rfl
@[simp] theorem setPtr_inputs (p : Ptr) (w : Word) (s : State) : (s.setPtr p w).inputs = s.inputs := rfl
@[simp] theorem setPtr_devIn (p : Ptr) (w : Word) (s : State) : (s.setPtr p w).devIn = s.devIn := rfl
@[simp] theorem setPtr_trace (p : Ptr) (w : Word) (s : State) : (s.setPtr p w).trace = s.trace := rfl
@[simp] theorem setPtr_freeCount (p : Ptr) (w : Word) (s : State) : (s.setPtr p w).freeCount = s.freeCount := rfl
@[simp] theorem setPtr_resets (p : Ptr) (w : Word) (s : State) : (s.setPtr p w).resets = s.resets := rfl
@[simp] theorem setPtr_cycles (p : Ptr) (w : Word) (s : State) : (s.setPtr p w).cycles = s.cycles := rfl
@[simp] theorem setPtr_flag (p : Ptr) (w : Word) (n : BitNo) (s : State) : ((s.setPtr p w).flag n) = s.flag n := rfl
@[simp] theorem setPtr_ramByte (p : Ptr) (w : Word) (a : Nat) (s : State) : ((s.setPtr p w).ramByte a) = s.ramByte a := rfl
@[simp] theorem setPtr_flashByte (p : Ptr) (w : Word) (a : Nat) (s : State) : ((s.setPtr p w).flashByte a) = s.flashByte a := rfl
@[simp] theorem setPtr_progWord (p : Ptr) (w : Word) (w' : Word) (s : State) : ((s.setPtr p w).progWord w') = s.progWord w' := rfl
@[simp] theorem setPtr_progByte (p : Ptr) (w : Word) (a : Nat) (s : State) : ((s.setPtr p w).progByte a) = s.progByte a := rfl
@[simp] theorem setPtr_freeByte (p : Ptr) (w : Word) (s : State) : (s.setPtr p w).freeByte = s.freeByte := rfl
@[simp] theorem setPtr_freeBit (p : Ptr) (w : Word) (s : State) : (s.setPtr p w).freeBit = s.freeBit := rfl
@[simp] theorem setPtr_pending (p : Ptr) (w : Word) (s : State) : (s.setPtr p w).pending = s.pending := rfl

/-! ### Registers after a register write -/

@[simp] theorem reg_setReg_self (i : Reg) (v : Byte) (s : State) : (s.setReg i v).reg i = v := by
  simp [State.reg, State.setReg]

theorem reg_setReg (i j : Reg) (v : Byte) (s : State) :
    (s.setReg i v).reg j = if j = i then v else s.reg j := by
  by_cases h : j = i
  · subst h; simp
  · have h' : i.val ≠ j.val := fun e => h (Fin.ext e.symm)
    simp [State.reg, State.setReg, h, Vector.getElem_set_ne, h']

@[simp] theorem reg_setReg_ne (i j : Reg) (v : Byte) (s : State) (h : j ≠ i) :
    (s.setReg i v).reg j = s.reg j := by rw [reg_setReg, if_neg h]

theorem reg_setPair (i j : Reg) (w : Word) (s : State) :
    (s.setPair i w).reg j = if j = i + 1 then highByte w else if j = i then lowByte w else s.reg j := by
  simp [State.setPair, reg_setReg]

theorem reg_setPtr (p : Ptr) (j : Reg) (w : Word) (s : State) :
    (s.setPtr p w).reg j = if j = p.hi then highByte w else if j = p.lo then lowByte w else s.reg j := by
  simp [State.setPtr, reg_setReg]

theorem joinBytes_toNat (h l : Byte) : (joinBytes h l).toNat = 256 * h.toNat + l.toNat := by
  have h1 : (joinBytes h l).toNat = h.toNat <<< 8 ||| l.toNat := BitVec.toNat_append h l
  rw [h1, ← Nat.shiftLeft_add_eq_or_of_lt l.isLt, Nat.shiftLeft_eq]
  omega

theorem lowByte_toNat (w : Word) : (lowByte w).toNat = w.toNat % 256 := by
  simp [lowByte]

theorem highByte_toNat (w : Word) : (highByte w).toNat = w.toNat / 256 := by
  have := w.isLt
  simp [highByte, Nat.shiftRight_eq_div_pow]
  omega

/-- The high byte of a joined word. -/
@[simp] theorem highByte_joinBytes (h l : Byte) : highByte (joinBytes h l) = h := by
  apply BitVec.eq_of_toNat_eq
  rw [highByte_toNat, joinBytes_toNat]
  have := l.isLt
  omega

/-- The low byte of a joined word. -/
@[simp] theorem lowByte_joinBytes (h l : Byte) : lowByte (joinBytes h l) = l := by
  apply BitVec.eq_of_toNat_eq
  rw [lowByte_toNat, joinBytes_toNat]
  have := l.isLt
  omega

/-- A word is its two bytes. -/
@[simp] theorem joinBytes_high_low (w : Word) : joinBytes (highByte w) (lowByte w) = w := by
  apply BitVec.eq_of_toNat_eq
  rw [joinBytes_toNat, highByte_toNat, lowByte_toNat]
  omega

/-- The value written to a pointer is the value read. -/
@[simp] theorem ptr_setPtr (p : Ptr) (w : Word) (s : State) : (s.setPtr p w).ptr p = w := by
  cases p <;> simp [State.ptr, reg_setPtr, Ptr.lo, Ptr.hi]

/-- The value written to a pair is the value read. -/
@[simp] theorem pair_setPair (i : Reg) (w : Word) (s : State) : (s.setPair i w).pair i = w := by
  have h : i ≠ i + 1 := by decide +revert
  simp [State.pair, reg_setPair, h]

/-! ### The lines -/

theorem sample_eq (s : State) : s.sample = { s with pins := s.sample.pins, inputs := s.sample.inputs } := by
  unfold State.sample
  split <;> rfl

@[simp] theorem sample_regs (s : State) : s.sample.regs = s.regs := by rw [sample_eq]
@[simp] theorem sample_pc (s : State) : s.sample.pc = s.pc := by rw [sample_eq]
@[simp] theorem sample_sreg (s : State) : s.sample.sreg = s.sreg := by rw [sample_eq]
@[simp] theorem sample_sp (s : State) : s.sample.sp = s.sp := by rw [sample_eq]
@[simp] theorem sample_rampz (s : State) : s.sample.rampz = s.rampz := by rw [sample_eq]
@[simp] theorem sample_ram (s : State) : s.sample.ram = s.ram := by rw [sample_eq]
@[simp] theorem sample_flash (s : State) : s.sample.flash = s.flash := by rw [sample_eq]
@[simp] theorem sample_inhibit (s : State) : s.sample.inhibit = s.inhibit := by rw [sample_eq]
@[simp] theorem sample_asleep (s : State) : s.sample.asleep = s.asleep := by rw [sample_eq]
@[simp] theorem sample_par (s : State) : s.sample.par = s.par := by rw [sample_eq]
@[simp] theorem sample_devIn (s : State) : s.sample.devIn = s.devIn := by rw [sample_eq]
@[simp] theorem sample_trace (s : State) : s.sample.trace = s.trace := by rw [sample_eq]
@[simp] theorem sample_freeCount (s : State) : s.sample.freeCount = s.freeCount := by rw [sample_eq]
@[simp] theorem sample_resets (s : State) : s.sample.resets = s.resets := by rw [sample_eq]
@[simp] theorem sample_cycles (s : State) : s.sample.cycles = s.cycles := by rw [sample_eq]
@[simp] theorem sample_reg (j : Reg) (s : State) : s.sample.reg j = s.reg j := by rw [sample_eq]; rfl
@[simp] theorem sample_flag (n : BitNo) (s : State) : s.sample.flag n = s.flag n := by rw [sample_eq]; rfl
@[simp] theorem sample_ramByte (a : Nat) (s : State) : s.sample.ramByte a = s.ramByte a := by rw [sample_eq]; rfl
@[simp] theorem sample_flashByte (a : Nat) (s : State) : s.sample.flashByte a = s.flashByte a := by rw [sample_eq]; rfl
@[simp] theorem sample_progWord (w' : Word) (s : State) : s.sample.progWord w' = s.progWord w' := by rw [sample_eq]; rfl
@[simp] theorem sample_progByte (a : Nat) (s : State) : s.sample.progByte a = s.progByte a := by rw [sample_eq]; rfl
@[simp] theorem sample_pair (j : Reg) (s : State) : s.sample.pair j = s.pair j := by rw [sample_eq]; rfl
@[simp] theorem sample_ptr (q : Ptr) (s : State) : s.sample.ptr q = s.ptr q := by rw [sample_eq]; rfl
@[simp] theorem sample_freeByte (s : State) : s.sample.freeByte = s.freeByte := by rw [sample_eq]; rfl
@[simp] theorem sample_freeBit (s : State) : s.sample.freeBit = s.freeBit := by rw [sample_eq]; rfl

/-- With no values waiting, sampling leaves the state alone. -/
theorem sample_of_inputs_nil (s : State) (h : s.inputs = []) : s.sample = s := by simp [State.sample, h]

end Sys2Proof.Laws
end

