-- ==== Sys2Proof/Laws/Memory.lean ====
section
/-! SUPPORT. The memory operations: a read after a write, every other address, and that each operation keeps the
canonical form. -/

namespace Sys2Proof.Laws

open Sys2Proof.Machine

/-! ### Reads -/

theorem read_put (m : List Host.Cell) (a b : Nat) (v : Byte) :
    Memory.read (Memory.put m a v) b = if b = a then some v else Memory.read m b := by
  induction m with
  | nil => simp [Memory.put, Memory.read]
  | cons c rest ih =>
    simp only [Memory.put]
    split
    · by_cases h : b = a <;> simp [Memory.read, h]
    · split
      · rename_i h1 h2
        subst h2
        by_cases h : b = c.1 <;> simp [Memory.read, h]
      · rename_i h1 h2
        simp only [Memory.read, ih]
        by_cases h : b = a
        · subst h; simp [h2]
        · simp [h]

theorem read_none_of_lt (m : List Host.Cell) (a : Nat) (h : ∀ c ∈ m, a < c.1) : Memory.read m a = none := by
  induction m with
  | nil => rfl
  | cons c rest ih =>
    have hc := h c (by simp)
    simp only [Memory.read]
    rw [if_neg (by omega), ih (fun d hd => h d (by simp [hd]))]

theorem read_erase (m : List Host.Cell) (a b : Nat) (hs : m.Pairwise (fun c d => c.1 < d.1)) :
    Memory.read (Memory.erase m a) b = if b = a then none else Memory.read m b := by
  induction m with
  | nil => simp [Memory.erase, Memory.read]
  | cons c rest ih =>
    have ih := ih hs.of_cons
    simp only [Memory.erase]
    split
    · rename_i h1
      by_cases h : b = a
      · rw [if_pos h, h, h1]
        exact read_none_of_lt _ _ (fun d hd => List.rel_of_pairwise_cons hs hd)
      · have : b ≠ c.1 := fun e => h (e.trans h1.symm)
        simp [Memory.read, h, this]
    · rename_i h1
      simp only [Memory.read, ih]
      by_cases h : b = a
      · subst h; simp [h1]
      · simp [h]

/-- A read after a write: the value written there, and the old value elsewhere, an unlisted address reading as the
memory's blank. -/
theorem read_write (blank : Option Byte) (m : List Host.Cell) (a b : Nat) (v : Byte)
    (hs : Memory.wf blank m) :
    Memory.read (Memory.write blank m a v) b =
      if b = a then (if blank = some v then none else some v) else Memory.read m b := by
  unfold Memory.write
  split
  · exact read_erase m a b hs.1
  · exact read_put m a b v

/-- A write of data memory lists the byte, in canonical form or not. -/
theorem read_write_none (m : List Host.Cell) (a b : Nat) (v : Byte) :
    Memory.read (Memory.write none m a v) b = if b = a then some v else Memory.read m b := by
  exact read_put m a b v

/-! ### The canonical form -/

theorem mem_put (m : List Host.Cell) (a : Nat) (v : Byte) (c : Host.Cell) (h : c ∈ Memory.put m a v) :
    c = (a, v) ∨ c ∈ m := by
  induction m with
  | nil => simpa [Memory.put] using h
  | cons d rest ih =>
    simp only [Memory.put] at h
    split at h
    · simpa using h
    · split at h
      · rcases List.mem_cons.1 h with h | h
        · exact .inl h
        · exact .inr (List.mem_cons_of_mem _ h)
      · rcases List.mem_cons.1 h with h | h
        · exact .inr (by simp [h])
        · rcases ih h with h | h
          · exact .inl h
          · exact .inr (List.mem_cons_of_mem _ h)

theorem mem_erase (m : List Host.Cell) (a : Nat) (c : Host.Cell) (h : c ∈ Memory.erase m a) : c ∈ m := by
  induction m with
  | nil => simp [Memory.erase] at h
  | cons d rest ih =>
    simp only [Memory.erase] at h
    split at h
    · exact List.mem_cons_of_mem _ h
    · rcases List.mem_cons.1 h with h | h
      · simp [h]
      · exact List.mem_cons_of_mem _ (ih h)

theorem put_rising (m : List Host.Cell) (a : Nat) (v : Byte) (hs : m.Pairwise (fun c d => c.1 < d.1)) :
    (Memory.put m a v).Pairwise (fun c d => c.1 < d.1) := by
  induction m with
  | nil => simp [Memory.put]
  | cons d rest ih =>
    have hd := List.pairwise_cons.1 hs
    simp only [Memory.put]
    split
    · rename_i h
      refine List.pairwise_cons.2 ⟨fun c hc => ?_, hs⟩
      rcases List.mem_cons.1 hc with e | hc
      · rw [e]; exact h
      · exact Nat.lt_trans h (hd.1 c hc)
    · split
      · rename_i h1 h2
        refine List.pairwise_cons.2 ⟨fun c hc => ?_, hd.2⟩
        have := hd.1 c hc
        rw [← h2] at this
        exact this
      · rename_i h1 h2
        refine List.pairwise_cons.2 ⟨fun c hc => ?_, ih hd.2⟩
        rcases mem_put rest a v c hc with e | hc
        · rw [e]; show d.1 < a; omega
        · exact hd.1 c hc

theorem erase_rising (m : List Host.Cell) (a : Nat) (hs : m.Pairwise (fun c d => c.1 < d.1)) :
    (Memory.erase m a).Pairwise (fun c d => c.1 < d.1) := by
  induction m with
  | nil => simp [Memory.erase]
  | cons d rest ih =>
    have hd := List.pairwise_cons.1 hs
    simp only [Memory.erase]
    split
    · exact hd.2
    · exact List.pairwise_cons.2 ⟨fun c hc => hd.1 c (mem_erase rest a c hc), ih hd.2⟩

/-- A write keeps the canonical form. -/
theorem write_wf (blank : Option Byte) (m : List Host.Cell) (a : Nat) (v : Byte) (h : Memory.wf blank m) :
    Memory.wf blank (Memory.write blank m a v) := by
  unfold Memory.write
  split
  · exact ⟨erase_rising m a h.1, fun c hc => h.2 c (mem_erase m a c hc)⟩
  · rename_i hb
    refine ⟨put_rising m a v h.1, fun c hc => ?_⟩
    rcases mem_put m a v c hc with e | hc
    · rw [e]; exact fun e => hb e.symm
    · exact h.2 c hc

/-- Every entry after a write was there before or is the one written. -/
theorem mem_write (blank : Option Byte) (m : List Host.Cell) (a : Nat) (v : Byte) (c : Host.Cell)
    (h : c ∈ Memory.write blank m a v) : c = (a, v) ∨ c ∈ m := by
  unfold Memory.write at h
  split at h
  · exact .inr (mem_erase m a c h)
  · exact mem_put m a v c h

/-- The memories of the state after reset are in canonical form. -/
theorem reset_ram_wf : Memory.wf ramBlank State.reset.ram := by decide

/-- The memories of the state after reset are in canonical form. -/
theorem reset_flash_wf : Memory.wf (some flashBlank) State.reset.flash := by decide

/-- Placing bytes in program memory keeps its canonical form. -/
theorem placeBytes_wf (bs : List Byte) (a : Nat) (s : State) (h : Memory.wf (some flashBlank) s.flash) :
    Memory.wf (some flashBlank) (placeBytes a bs s).flash := by
  induction bs generalizing a s with
  | nil => exact h
  | cons v rest ih => exact ih _ _ (write_wf _ _ _ _ h)

/-! ### Data memory through its bytes -/

/-- A byte of data memory after a write of data memory. -/
theorem ramByte_setRam_write (a b : Nat) (v : Byte) (s : State) :
    (s.setRam (Memory.write ramBlank s.ram a v)).ramByte b = if b = a then v else s.ramByte b := by
  simp only [State.ramByte, setRam_ram, setRam_resets, ramBlank, read_write_none]
  split <;> rfl

end Sys2Proof.Laws
end

