-- ==== Sys2Proof/Laws/DataSpace.lean ====
section
/-! SUPPORT. The data space: what the map answers, and one lemma each for a load and a store that says everything they
can do. -/

namespace Sys2Proof.Laws

open Sys2Proof.Machine

/-! ### The map -/

/-- What a region of the map says of its address. -/
theorem region_inv (p : Params) (a : Word) :
    (∀ i, region p a = .reg i → a.toNat = i.val) ∧ (region p a = .rampz → a = 0x5B#16) ∧
    (region p a = .spl → a = 0x5D#16) ∧ (region p a = .sph → a = 0x5E#16) ∧ (region p a = .sreg → a = 0x5F#16) ∧
    (region p a = .device → 32 ≤ a.toNat ∧ a ≠ 0x5B#16 ∧ a ≠ 0x5D#16 ∧ a ≠ 0x5E#16 ∧ a ≠ 0x5F#16) ∧
    (region p a = .memory → 0x60 ≤ a.toNat) ∧ (region p a = .unmapped → 0x60 ≤ a.toNat) := by
  unfold region
  split
  · rename_i h
    simp
  · split
    · simp_all
    · split
      · simp_all
      · split
        · simp_all
        · split
          · simp_all
          · repeat' split
            all_goals simp_all
            all_goals omega

theorem region_of_lt (p : Params) (a : Word) (h : a.toNat < 32) : region p a = .reg ⟨a.toNat, h⟩ := by
  simp [region, h]

theorem region_reg (p : Params) (a : Word) (i : Reg) (h : a.toNat = i.val) : region p a = .reg i := by
  rw [region_of_lt p a (h ▸ i.isLt)]
  simp [h]

@[simp] theorem region_rampz (p : Params) : region p 0x5B#16 = .rampz := by simp [region]

@[simp] theorem region_spl (p : Params) : region p 0x5D#16 = .spl := by simp [region]

@[simp] theorem region_sph (p : Params) : region p 0x5E#16 = .sph := by simp [region]

@[simp] theorem region_sreg (p : Params) : region p 0x5F#16 = .sreg := by simp [region]

/-- The I/O locations that SBI, CBI, SBIC and SBIS reach belong to the platform. -/
@[simp] theorem region_ioBitAddr (p : Params) (a : BitVec 5) : region p (ioBitAddr a) = .device := by
  have h : (ioBitAddr a).toNat = 32 + a.toNat := by
    have := a.isLt
    simp [ioBitAddr]
    omega
  have ne : ∀ w : Word, 64 ≤ w.toNat → ioBitAddr a ≠ w := by
    intro w hw e
    have := a.isLt
    rw [← e, h] at hw
    omega
  have := a.isLt
  unfold region
  rw [dif_neg (by omega), if_neg (ne _ (by decide)), if_neg (ne _ (by decide)), if_neg (ne _ (by decide)),
    if_neg (ne _ (by decide)), if_pos (by omega)]

/-- No I/O location is unmapped. -/
theorem region_io_mapped (p : Params) (a : BitVec 6) : region p (ioAddr a) ≠ .unmapped := by
  intro e
  have h := (region_inv p (ioAddr a)).2.2.2.2.2.2.2 e
  have : (ioAddr a).toNat = 32 + a.toNat := by
    have := a.isLt
    simp [ioAddr]
    omega
  have := a.isLt
  omega

/-! ### A load -/

/-- A load of an address where something is mapped completes with what `Loads` says. -/
theorem loadByte_ok (a : Word) (s : State) (h : region s.par a ≠ .unmapped) :
    ∃ v u, loadByte a s = .ok (v, u) ∧ Loads a s v u := by
  obtain ⟨hr, hz, hl, hh, hs, hd, hm, -⟩ := region_inv s.par a
  cases e : region s.par a with
  | reg i =>
    refine ⟨s.reg i, s, by simp [loadByte, e], ?_⟩
    have hi := hr i e
    refine ⟨fun j hj => ?_, fun x => ?_, fun x => ?_, fun x => ?_, fun x => ?_, by simp [e], by simp [e], by simp⟩
    · rw [show i = j from Fin.ext (hi.symm.trans hj)]
    all_goals subst x; simp at e
  | rampz =>
    have := hz e; subst this
    refine ⟨s.rampz &&& rampzMask s.par, s, by simp [loadByte], ?_⟩
    constructor <;> simp
    intro i x; have := i.isLt; omega
  | spl =>
    have := hl e; subst this
    refine ⟨lowByte s.sp, s, by simp [loadByte], ?_⟩
    constructor <;> simp
    intro i x; have := i.isLt; omega
  | sph =>
    have := hh e; subst this
    refine ⟨highByte s.sp, s, by simp [loadByte], ?_⟩
    constructor <;> simp
    intro i x; have := i.isLt; omega
  | sreg =>
    have := hs e; subst this
    refine ⟨s.sreg, s, by simp [loadByte], ?_⟩
    constructor <;> simp
    intro i x; have := i.isLt; omega
  | device =>
    obtain ⟨h0, h1, h2, h3, h4⟩ := hd e
    refine ⟨deviceAnswer a s, (deviceRead a s).2, by simp [loadByte, e, deviceRead], ?_⟩
    refine ⟨fun i hi => ?_, fun x => absurd x h1, fun x => absurd x h2, fun x => absurd x h3,
      fun x => absurd x h4, by simp [e], fun _ => ⟨rfl, rfl⟩, fun x => absurd e x⟩
    have := i.isLt; omega
  | memory =>
    have h0 := hm e
    refine ⟨s.ramByte a.toNat, s, by simp [loadByte, e], ?_⟩
    refine ⟨fun i hi => ?_, fun x => ?_, fun x => ?_, fun x => ?_, fun x => ?_, fun _ => rfl, by simp [e], fun _ => rfl⟩
    · have := i.isLt; omega
    all_goals subst x; simp at e
  | unmapped => exact absurd e h

/-- A load that answers says everything through `Loads`, and something was mapped. -/
theorem loadByte_inv (a : Word) (s : State) (v : Byte) (u : State) (h : loadByte a s = .ok (v, u)) :
    region s.par a ≠ .unmapped ∧ Loads a s v u := by
  have hm : region s.par a ≠ .unmapped := by
    intro e; simp [loadByte, e] at h
  obtain ⟨v', u', h', l⟩ := loadByte_ok a s hm
  rw [h] at h'
  cases h'
  exact ⟨hm, l⟩

theorem loadByte_unmapped (a : Word) (s : State) (h : region s.par a = .unmapped) :
    loadByte a s = .error (.unmappedData a) := by simp [loadByte, h]

/-- A load changes at most what a device read leaves. -/
theorem Loads_state {a : Word} {s u : State} {v : Byte} (h : Loads a s v u) :
    u = { s with devIn := u.devIn, trace := u.trace } := by
  by_cases e : region s.par a = .device
  · obtain ⟨-, hu⟩ := h.device e
    rw [hu]
  · rw [h.quiet e]

/-- A load from where only data memory lies reads data memory. -/
theorem loadByte_memory (a : Word) (s : State) (h : region s.par a = .memory) :
    loadByte a s = .ok (s.ramByte a.toNat, s) := by simp [loadByte, h]

/-! ### A store -/

/-- A store to an address where something is mapped completes with what `Stores` says. -/
theorem storeByte_ok (a : Word) (v : Byte) (s : State) (h : region s.par a ≠ .unmapped) :
    ∃ u, storeByte a v s = .ok u ∧ Stores a v s u := by
  obtain ⟨hr, hz, hl, hh, hs, hd, hm, -⟩ := region_inv s.par a
  cases e : region s.par a with
  | reg i =>
    refine ⟨_, by simp [storeByte, e]; rfl, ?_⟩
    have hi := hr i e
    have h1 : a ≠ 0x5B#16 := by rintro rfl; simp at e
    have h2 : a ≠ 0x5D#16 := by rintro rfl; simp at e
    have h3 : a ≠ 0x5E#16 := by rintro rfl; simp at e
    have h4 : a ≠ 0x5F#16 := by rintro rfl; simp at e
    constructor <;> try simp [h1, h2, h3, h4, e]
    intro j
    rw [reg_setReg]
    by_cases hj : j = i
    · subst hj; simp [hi]
    · have : a.toNat ≠ j.val := fun x => hj (Fin.ext (x.symm.trans hi))
      simp [hj, this]
  | rampz =>
    have := hz e; subst this
    refine ⟨_, by simp [storeByte]; rfl, ?_⟩
    constructor <;> simp
    all_goals intro i x; have := i.isLt; omega
  | spl =>
    have := hl e; subst this
    refine ⟨_, by simp [storeByte]; rfl, ?_⟩
    constructor <;> simp
    all_goals intro i x; have := i.isLt; omega
  | sph =>
    have := hh e; subst this
    refine ⟨_, by simp [storeByte]; rfl, ?_⟩
    constructor <;> simp
    all_goals intro i x; have := i.isLt; omega
  | sreg =>
    have := hs e; subst this
    refine ⟨_, by simp [storeByte]; rfl, ?_⟩
    by_cases hI : bitOf v flagI && !s.flag flagI
    · rw [writeSreg, if_pos hI]
      constructor <;> simp_all
      all_goals intro i x; have := i.isLt; omega
    · rw [writeSreg, if_neg hI]
      constructor <;> simp
      all_goals intro i x; have := i.isLt; omega
  | device =>
    obtain ⟨h0, h1, h2, h3, h4⟩ := hd e
    refine ⟨_, by simp [storeByte, e]; rfl, ?_⟩
    constructor <;> simp [h1, h2, h3, h4, e]
    intro i x; have := i.isLt; omega
  | memory =>
    have h0 := hm e
    have h1 : a ≠ 0x5B#16 := by rintro rfl; simp at e
    have h2 : a ≠ 0x5D#16 := by rintro rfl; simp at e
    have h3 : a ≠ 0x5E#16 := by rintro rfl; simp at e
    have h4 : a ≠ 0x5F#16 := by rintro rfl; simp at e
    refine ⟨_, by simp [storeByte, e]; rfl, ?_⟩
    constructor <;> simp [h1, h2, h3, h4, e, ramByte_setRam_write]
    intro i x; have := i.isLt; omega
  | unmapped => exact absurd e h

/-- A store that answers says everything through `Stores`, and something was mapped. -/
theorem storeByte_inv (a : Word) (v : Byte) (s u : State) (h : storeByte a v s = .ok u) :
    region s.par a ≠ .unmapped ∧ Stores a v s u := by
  have hm : region s.par a ≠ .unmapped := by
    intro e; simp [storeByte, e] at h
  obtain ⟨u', h', l⟩ := storeByte_ok a v s hm
  rw [h] at h'
  cases h'
  exact ⟨hm, l⟩

theorem storeByte_unmapped (a : Word) (v : Byte) (s : State) (h : region s.par a = .unmapped) :
    storeByte a v s = .error (.unmappedData a) := by simp [storeByte, h]

theorem storeByte_memory (a : Word) (v : Byte) (s : State) (h : region s.par a = .memory) :
    storeByte a v s = .ok (s.setRam (Memory.write ramBlank s.ram a.toNat v)) := by simp [storeByte, h]

/-- Data memory after a store is the old list or the old list with the one byte written. -/
theorem storeByte_ram (a : Word) (v : Byte) (s u : State) (h : storeByte a v s = .ok u) :
    (region s.par a = .memory ∧ u.ram = Memory.write ramBlank s.ram a.toNat v) ∨ u.ram = s.ram := by
  unfold storeByte at h
  split at h <;> first
    | cases h; exact .inr rfl
    | skip
  · cases h
    unfold writeSreg
    split <;> exact .inr rfl
  · rename_i e
    cases h
    exact .inl ⟨e, rfl⟩
  · cases h

/-- The list of program memory is left alone by a store. -/
theorem storeByte_flash (a : Word) (v : Byte) (s u : State) (h : storeByte a v s = .ok u) :
    u.flash = s.flash := by
  unfold storeByte at h
  split at h <;> cases h <;> first
    | rfl
    | (unfold writeSreg; split <;> rfl)

/-- After a store the latch is as it was, or I is on. -/
theorem storeByte_inhibit (a : Word) (v : Byte) (s u : State) (h : storeByte a v s = .ok u) :
    u.inhibit = s.inhibit ∨ u.flag flagI = true := by
  unfold storeByte at h
  split at h <;> cases h <;> first
    | exact .inl rfl
    | skip
  unfold writeSreg
  split
  · rename_i hI
    right
    simp only [Bool.and_eq_true] at hI
    exact hI.1
  · exact .inl rfl

end Sys2Proof.Laws
end

