-- ==== Sys2Proof/Laws/Flags.lean ====
section
/-! SUPPORT. Bits of bytes, and each flag computation read flag by flag. -/

namespace Sys2Proof.Laws

open Sys2Proof.Machine

@[simp] theorem flag_setSreg (v : Byte) (n : BitNo) (s : State) : (s.setSreg v).flag n = bitOf v n := rfl

/-! ### Single bits -/

theorem bitOf_one_shl (n m : BitNo) : (1#8 <<< n.val).getLsbD m.val = decide (m = n) := by
  decide +revert

/-- A byte with one bit put reads so, and as before elsewhere. -/
theorem bitOf_putBit (v : Byte) (n m : BitNo) (b : Bool) :
    bitOf (putBit v n b) m = if m = n then b else bitOf v m := by
  have hm := m.isLt
  unfold bitOf putBit
  cases b
  · simp only [Bool.false_eq_true, if_false, BitVec.getLsbD_and, BitVec.getLsbD_not, bitOf_one_shl, hm]
    by_cases h : m = n <;> simp [h]
  · simp only [if_true, BitVec.getLsbD_or, bitOf_one_shl]
    by_cases h : m = n <;> simp [h]

/-- Merging takes the bits of the mask from the new byte, the others from the old one. -/
theorem bitOf_mergeFlags (m new old : Byte) (n : BitNo) :
    bitOf (mergeFlags m new old) n = if bitOf m n then bitOf new n else bitOf old n := by
  have hn := n.isLt
  unfold bitOf mergeFlags
  simp only [BitVec.getLsbD_or, BitVec.getLsbD_and, BitVec.getLsbD_not, hn, decide_true, Bool.true_and]
  split <;> simp_all

/-- Each packed flag is in its place. -/
theorem bitOf_packFlags (h s v n z c : Bool) :
    bitOf (packFlags h s v n z c) flagH = h ∧ bitOf (packFlags h s v n z c) flagS = s ∧
    bitOf (packFlags h s v n z c) flagV = v ∧ bitOf (packFlags h s v n z c) flagN = n ∧
    bitOf (packFlags h s v n z c) flagZ = z ∧ bitOf (packFlags h s v n z c) flagC = c := by
  decide +revert

/-- Two bytes are equal when their bits are. -/
theorem byte_ext (a b : Byte) (h : ∀ n : BitNo, bitOf a n = bitOf b n) : a = b := by
  apply BitVec.eq_of_getLsbD_eq
  intro i hi
  exact h ⟨i, hi⟩

/-- Bit 7 of a byte. -/
theorem bit7_eq (a : Byte) : a[7] = decide (128 ≤ a.toNat) := by decide +revert

/-- Bit 3 of a byte. -/
theorem bit3_eq (a : Byte) : a[3] = decide (8 ≤ a.toNat % 16) := by decide +revert

/-- Bit 0 of a byte. -/
theorem bit0_eq (a : Byte) : a[0] = decide (a.toNat % 2 = 1) := by decide +revert

/-- Bit 15 of a word. -/
theorem bit15_eq (w : Word) : w[15] = decide (32768 ≤ w.toNat) := by
  have h : w[15] = w.msb := by simp [BitVec.msb_eq_getLsbD_last, ← BitVec.getLsbD_eq_getElem]
  rw [h, BitVec.msb_eq_decide]

/-- A byte read as signed. -/
theorem byte_toInt (a : Byte) : a.toInt = if 128 ≤ a.toNat then (a.toNat : Int) - 256 else a.toNat := by
  have := a.isLt
  rw [BitVec.toInt_eq_toNat_cond]
  split <;> split <;> omega

/-- A word read as signed. -/
theorem word_toInt (w : Word) : w.toInt = if 32768 ≤ w.toNat then (w.toNat : Int) - 65536 else w.toNat := by
  have := w.isLt
  rw [BitVec.toInt_eq_toNat_cond]
  split <;> split <;> omega

/-- A byte is 0 when its number is. -/
theorem byte_beq_zero (a : Byte) : (a == 0) = decide (a.toNat = 0) := by decide +revert

/-- A word is 0 when its number is. -/
theorem word_beq_zero (w : Word) : (w == 0) = decide (w.toNat = 0) := by
  rw [beq_eq_decide, decide_eq_decide]
  constructor
  · rintro rfl; rfl
  · intro h; exact BitVec.eq_of_toNat_eq (by simpa using h)

/-! ### The bits of each flag computation -/

/-- One flag of a merge under the mask of H, S, V, N, Z, C. -/
theorem bitOf_merge6 (h s v n z c : Bool) (old : Byte) :
    bitOf (mergeFlags maskHSVNZC (packFlags h s v n z c) old) flagH = h ∧
    bitOf (mergeFlags maskHSVNZC (packFlags h s v n z c) old) flagS = s ∧
    bitOf (mergeFlags maskHSVNZC (packFlags h s v n z c) old) flagV = v ∧
    bitOf (mergeFlags maskHSVNZC (packFlags h s v n z c) old) flagN = n ∧
    bitOf (mergeFlags maskHSVNZC (packFlags h s v n z c) old) flagZ = z ∧
    bitOf (mergeFlags maskHSVNZC (packFlags h s v n z c) old) flagC = c := by
  obtain ⟨h1, h2, h3, h4, h5, h6⟩ := bitOf_packFlags h s v n z c
  simp only [bitOf_mergeFlags, h1, h2, h3, h4, h5, h6]
  refine ⟨if_pos ?_, if_pos ?_, if_pos ?_, if_pos ?_, if_pos ?_, if_pos ?_⟩ <;> decide

/-- One flag of a merge under the mask of S, V, N, Z, C. -/
theorem bitOf_merge5 (h s v n z c : Bool) (old : Byte) :
    bitOf (mergeFlags maskSVNZC (packFlags h s v n z c) old) flagS = s ∧
    bitOf (mergeFlags maskSVNZC (packFlags h s v n z c) old) flagV = v ∧
    bitOf (mergeFlags maskSVNZC (packFlags h s v n z c) old) flagN = n ∧
    bitOf (mergeFlags maskSVNZC (packFlags h s v n z c) old) flagZ = z ∧
    bitOf (mergeFlags maskSVNZC (packFlags h s v n z c) old) flagC = c := by
  obtain ⟨-, h2, h3, h4, h5, h6⟩ := bitOf_packFlags h s v n z c
  simp only [bitOf_mergeFlags, h2, h3, h4, h5, h6]
  refine ⟨if_pos ?_, if_pos ?_, if_pos ?_, if_pos ?_, if_pos ?_⟩ <;> decide

/-- One flag of a merge under the mask of S, V, N, Z. -/
theorem bitOf_merge4 (h s v n z c : Bool) (old : Byte) :
    bitOf (mergeFlags maskSVNZ (packFlags h s v n z c) old) flagS = s ∧
    bitOf (mergeFlags maskSVNZ (packFlags h s v n z c) old) flagV = v ∧
    bitOf (mergeFlags maskSVNZ (packFlags h s v n z c) old) flagN = n ∧
    bitOf (mergeFlags maskSVNZ (packFlags h s v n z c) old) flagZ = z := by
  obtain ⟨-, h2, h3, h4, h5, -⟩ := bitOf_packFlags h s v n z c
  simp only [bitOf_mergeFlags, h2, h3, h4, h5]
  refine ⟨if_pos ?_, if_pos ?_, if_pos ?_, if_pos ?_⟩ <;> decide

/-- One flag of a merge under the mask of Z, C. -/
theorem bitOf_merge2 (h s v n z c : Bool) (old : Byte) :
    bitOf (mergeFlags maskZC (packFlags h s v n z c) old) flagZ = z ∧
    bitOf (mergeFlags maskZC (packFlags h s v n z c) old) flagC = c := by
  obtain ⟨-, -, -, -, h5, h6⟩ := bitOf_packFlags h s v n z c
  simp only [bitOf_mergeFlags, h5, h6]
  exact ⟨if_pos (by decide), if_pos (by decide)⟩

/-- Bits outside a mask are kept. -/
theorem bitOf_merge_keep (m new old : Byte) (n : BitNo) (h : bitOf m n = false) :
    bitOf (mergeFlags m new old) n = bitOf old n := by simp [bitOf_mergeFlags, h]

theorem mask6_keep (n : BitNo) (h : n ∉ sixFlags) : bitOf maskHSVNZC n = false := by
  revert h; decide +revert

theorem mask5_keep (n : BitNo) (h : n ∉ fiveFlags) : bitOf maskSVNZC n = false := by
  revert h; decide +revert

theorem mask4_keep (n : BitNo) (h : n ∉ fourFlags) : bitOf maskSVNZ n = false := by
  revert h; decide +revert

theorem mask2_keep (n : BitNo) (h : n ∉ [flagZ, flagC]) : bitOf maskZC n = false := by
  revert h; decide +revert

/-! ### The results as numbers -/

theorem carryByte_toNat (c : Bool) : (carryByte c).toNat = c.toNat := by cases c <;> rfl

/-- The result of an addition, as a number. -/
theorem addResult_toNat (a b : Byte) (c : Bool) :
    (addResult a b c).toNat = (a.toNat + b.toNat + c.toNat) % 256 := by
  simp [addResult, carryByte_toNat]

/-- The result of a subtraction, as a number. -/
theorem subResult_toNat (a b : Byte) (c : Bool) :
    ((subResult a b c).toNat : Int) = exactDiff a b c % 256 := by
  have := a.isLt
  have := b.isLt
  have : c.toNat < 2 := Bool.toNat_lt c
  simp only [subResult, exactDiff, BitVec.toNat_sub, carryByte_toNat]
  omega

/-- Each flag of an addition as exact arithmetic (spec/40_arithmetic_logic.md R121). -/
theorem addFlags_exact (a b : Byte) (c : Bool) (x : Byte) (t : State)
    (h : t.sreg = addFlags a b (addResult a b c) x) : SumFlags a b c t := by
  have ha := a.isLt
  have hb := b.isLt
  have hc : c.toNat < 2 := Bool.toNat_lt c
  have hr := addResult_toNat a b c
  have hf : ∀ n, t.flag n = bitOf (addFlags a b (addResult a b c) x) n := fun n => by rw [State.flag, h]
  unfold addFlags at hf
  obtain ⟨e1, e2, e3, e4, e5, e6⟩ := bitOf_merge6
    ((a[3] && b[3]) || (b[3] && !(addResult a b c)[3]) || (!(addResult a b c)[3] && a[3]))
    ((addResult a b c)[7] != ((a[7] && b[7] && !(addResult a b c)[7]) || (!a[7] && !b[7] && (addResult a b c)[7])))
    ((a[7] && b[7] && !(addResult a b c)[7]) || (!a[7] && !b[7] && (addResult a b c)[7]))
    (addResult a b c)[7] (addResult a b c == 0)
    ((a[7] && b[7]) || (b[7] && !(addResult a b c)[7]) || (!(addResult a b c)[7] && a[7])) x
  generalize addResult a b c = r at *
  have hrl := r.isLt
  have hq : r.toNat = a.toNat + b.toNat + c.toNat ∧ a.toNat + b.toNat + c.toNat < 256 ∨
      r.toNat + 256 = a.toNat + b.toNat + c.toNat := by omega
  constructor
  · rw [hf, e1, bit3_eq, bit3_eq, bit3_eq]
    clear hr
    by_cases p : 8 ≤ a.toNat % 16 <;> by_cases q : 8 ≤ b.toNat % 16 <;>
      simp only [p, q, decide_true, decide_false] <;> rcases hq with hq | hq <;> rw [Bool.eq_iff_iff] <;> simp <;> omega
  · rw [hf, e6, bit7_eq, bit7_eq, bit7_eq]
    clear hr
    by_cases p : 128 ≤ a.toNat <;> by_cases q : 128 ≤ b.toNat <;>
      simp only [p, q, decide_true, decide_false] <;> rcases hq with hq | hq <;> rw [Bool.eq_iff_iff] <;> simp <;> omega
  · rw [hf, e3, bit7_eq, bit7_eq, bit7_eq, byte_toInt, byte_toInt]
    clear hr
    by_cases p : 128 ≤ a.toNat <;> by_cases q : 128 ≤ b.toNat <;>
      simp only [p, q, decide_true, decide_false] <;> rcases hq with hq | hq <;> rw [Bool.eq_iff_iff] <;> simp <;> omega
  · rw [hf, e4, bit7_eq, hr]
  · rw [hf, e5, byte_beq_zero, hr]
  · rw [hf, hf, hf, e2, e4, e3]

/-- Each flag of a subtraction but Z as exact arithmetic (spec/40_arithmetic_logic.md R122). -/
theorem subFlags_exact (a b : Byte) (c z : Bool) (x : Byte) (t : State)
    (h : t.sreg = subFlags a b (subResult a b c) z x) : DiffFlags a b c t ∧ t.flag flagZ = z := by
  have ha := a.isLt
  have hb := b.isLt
  have hc : c.toNat < 2 := Bool.toNat_lt c
  have hr := subResult_toNat a b c
  unfold exactDiff at hr
  have hf : ∀ n, t.flag n = bitOf (subFlags a b (subResult a b c) z x) n := fun n => by rw [State.flag, h]
  unfold subFlags at hf
  obtain ⟨e1, e2, e3, e4, e5, e6⟩ := bitOf_merge6
    ((!a[3] && b[3]) || (b[3] && (subResult a b c)[3]) || ((subResult a b c)[3] && !a[3]))
    ((subResult a b c)[7] != ((a[7] && !b[7] && !(subResult a b c)[7]) || (!a[7] && b[7] && (subResult a b c)[7])))
    ((a[7] && !b[7] && !(subResult a b c)[7]) || (!a[7] && b[7] && (subResult a b c)[7]))
    (subResult a b c)[7] z
    ((!a[7] && b[7]) || (b[7] && (subResult a b c)[7]) || ((subResult a b c)[7] && !a[7])) x
  generalize subResult a b c = r at *
  have hrl := r.isLt
  have hq : r.toNat + b.toNat + c.toNat = a.toNat ∨
      r.toNat + b.toNat + c.toNat = a.toNat + 256 ∧ a.toNat < b.toNat + c.toNat := by omega
  refine ⟨?_, by rw [hf, e5]⟩
  constructor
  · rw [hf, e1, bit3_eq, bit3_eq, bit3_eq]
    by_cases p : 8 ≤ a.toNat % 16 <;> by_cases q : 8 ≤ b.toNat % 16 <;>
      simp only [p, q, decide_true, decide_false] <;> rcases hq with hq | hq <;> rw [Bool.eq_iff_iff] <;> simp <;> omega
  · rw [hf, e6, bit7_eq, bit7_eq, bit7_eq]
    by_cases p : 128 ≤ a.toNat <;> by_cases q : 128 ≤ b.toNat <;>
      simp only [p, q, decide_true, decide_false] <;> rcases hq with hq | hq <;> rw [Bool.eq_iff_iff] <;> simp <;> omega
  · rw [hf, e3, bit7_eq, bit7_eq, bit7_eq, byte_toInt, byte_toInt]
    by_cases p : 128 ≤ a.toNat <;> by_cases q : 128 ≤ b.toNat <;>
      simp only [p, q, decide_true, decide_false] <;> rcases hq with hq | hq <;> rw [Bool.eq_iff_iff] <;> simp <;> omega
  · rw [hf, e4, bit7_eq, exactDiff, ← hr]
    simp
  · rw [hf, hf, hf, e2, e4, e3]

/-- An addition keeps T and I. -/
theorem addFlags_keep (a b r x : Byte) (n : BitNo) (h : n ∉ sixFlags) :
    bitOf (addFlags a b r x) n = bitOf x n := bitOf_merge_keep _ _ _ _ (mask6_keep n h)

/-- A subtraction keeps T and I. -/
theorem subFlags_keep (a b r : Byte) (z : Bool) (x : Byte) (n : BitNo) (h : n ∉ sixFlags) :
    bitOf (subFlags a b r z x) n = bitOf x n := bitOf_merge_keep _ _ _ _ (mask6_keep n h)

/-- The flags of a logic operation (R123). -/
theorem logicFlags_exact (r x : Byte) (t : State) (h : t.sreg = logicFlags r x) : LogicFlags r t := by
  have hf : ∀ n, t.flag n = bitOf (logicFlags r x) n := fun n => by rw [State.flag, h]
  unfold logicFlags at hf
  obtain ⟨e1, e2, e3, e4⟩ := bitOf_merge4 false r[7] false r[7] (r == 0) false x
  constructor
  · rw [hf, e2]
  · rw [hf, e3, bit7_eq]
  · rw [hf, e4, byte_beq_zero]
  · rw [hf, hf, hf, e1, e2, e3]; simp

theorem logicFlags_keep (r x : Byte) (n : BitNo) (h : n ∉ fourFlags) :
    bitOf (logicFlags r x) n = bitOf x n := bitOf_merge_keep _ _ _ _ (mask4_keep n h)

theorem comFlags_keep (r x : Byte) (n : BitNo) (h : n ∉ fiveFlags) :
    bitOf (comFlags r x) n = bitOf x n := bitOf_merge_keep _ _ _ _ (mask5_keep n h)

theorem negFlags_keep (a r x : Byte) (n : BitNo) (h : n ∉ sixFlags) :
    bitOf (negFlags a r x) n = bitOf x n := bitOf_merge_keep _ _ _ _ (mask6_keep n h)

theorem incFlags_keep (r x : Byte) (n : BitNo) (h : n ∉ fourFlags) :
    bitOf (incFlags r x) n = bitOf x n := bitOf_merge_keep _ _ _ _ (mask4_keep n h)

theorem decFlags_keep (r x : Byte) (n : BitNo) (h : n ∉ fourFlags) :
    bitOf (decFlags r x) n = bitOf x n := bitOf_merge_keep _ _ _ _ (mask4_keep n h)

theorem adiwFlags_keep (w r : Word) (x : Byte) (n : BitNo) (h : n ∉ fiveFlags) :
    bitOf (adiwFlags w r x) n = bitOf x n := bitOf_merge_keep _ _ _ _ (mask5_keep n h)

theorem sbiwFlags_keep (w r : Word) (x : Byte) (n : BitNo) (h : n ∉ fiveFlags) :
    bitOf (sbiwFlags w r x) n = bitOf x n := bitOf_merge_keep _ _ _ _ (mask5_keep n h)

theorem mulFlags_keep (p r : Word) (x : Byte) (n : BitNo) (h : n ∉ [flagZ, flagC]) :
    bitOf (mulFlags p r x) n = bitOf x n := bitOf_merge_keep _ _ _ _ (mask2_keep n h)

/-- The flags of a multiply (R124). -/
theorem mulFlags_bits (p r : Word) (x : Byte) :
    bitOf (mulFlags p r x) flagZ = decide (r.toNat = 0) ∧ bitOf (mulFlags p r x) flagC = decide (32768 ≤ p.toNat) := by
  obtain ⟨e1, e2⟩ := bitOf_merge2 false false false false (r == 0) p[15] x
  exact ⟨e1.trans (word_beq_zero r), e2.trans (bit15_eq p)⟩

/-- The flags of a right shift (spec/44_bit_and_bit_test.md R265). -/
theorem shiftRightFlags_exact (c : Bool) (r x : Byte) (t : State) (h : t.sreg = shiftRightFlags c r x) :
    ShiftFlags r c t := by
  have hf : ∀ n, t.flag n = bitOf (shiftRightFlags c r x) n := fun n => by rw [State.flag, h]
  unfold shiftRightFlags at hf
  obtain ⟨e1, e2, e3, e4, e5⟩ := bitOf_merge5 false (r[7] != (r[7] != c)) (r[7] != c) r[7] (r == 0) c x
  constructor
  · rw [hf, e5]
  · rw [hf, e3, bit7_eq]
  · rw [hf, e4, byte_beq_zero]
  · rw [hf, hf, hf, e2, e3, e5]
  · rw [hf, hf, hf, e1, e2, e3]

theorem shiftRightFlags_keep (c : Bool) (r x : Byte) (n : BitNo) (h : n ∉ fiveFlags) :
    bitOf (shiftRightFlags c r x) n = bitOf x n := bitOf_merge_keep _ _ _ _ (mask5_keep n h)

/-- The flags of a left shift (R265). -/
theorem shiftLeftFlags_exact (a : Byte) (c : Bool) (r x : Byte) (t : State)
    (h : t.sreg = shiftLeftFlags a c r x) : ShiftFlags r c t ∧ t.flag flagH = a[3] := by
  have hf : ∀ n, t.flag n = bitOf (shiftLeftFlags a c r x) n := fun n => by rw [State.flag, h]
  unfold shiftLeftFlags at hf
  obtain ⟨e0, e1, e2, e3, e4, e5⟩ := bitOf_merge6 a[3] (r[7] != (r[7] != c)) (r[7] != c) r[7] (r == 0) c x
  refine ⟨?_, by rw [hf, e0]⟩
  constructor
  · rw [hf, e5]
  · rw [hf, e3, bit7_eq]
  · rw [hf, e4, byte_beq_zero]
  · rw [hf, hf, hf, e2, e3, e5]
  · rw [hf, hf, hf, e1, e2, e3]

theorem shiftLeftFlags_keep (a : Byte) (c : Bool) (r x : Byte) (n : BitNo) (h : n ∉ sixFlags) :
    bitOf (shiftLeftFlags a c r x) n = bitOf x n := bitOf_merge_keep _ _ _ _ (mask6_keep n h)

end Sys2Proof.Laws
end

