-- ==== Sys2Proof/Laws/Ops.lean ====
section
/-! SUPPORT. What each shared operation can do, said once: the stack, skips, branches, the boundary. -/

namespace Sys2Proof.Laws

open Sys2Proof.Machine

@[simp] theorem settle_ok (s : State) : settle (.ok s) = .next s := rfl

@[simp] theorem settle_error (f : Fault) : settle (.error f) = .fault f := rfl

/-- What settles to a next state was reached. -/
theorem settle_eq_next (r : Except Fault State) (t : State) : settle r = .next t ↔ r = .ok t := by
  cases r <;> simp [settle]

/-! ### The stack -/

theorem isSpByte_false {a : Word} (h1 : a ≠ 0x5D) (h2 : a ≠ 0x5E) : isSpByte a = false := by
  simp only [isSpByte, Bool.or_eq_false_iff, beq_eq_false_iff_ne]
  exact ⟨h1, h2⟩

/-- A push of one byte: the store at SP, then SP one lower. -/
theorem push8_ok (v : Byte) (s : State) (h : StackByte s s.sp) :
    ∃ u, push8 v s = .ok { u with sp := s.sp - 1 } ∧ Stores s.sp v s u := by
  obtain ⟨u, hu, st⟩ := storeByte_ok s.sp v s h.1
  refine ⟨u, ?_, st⟩
  simp only [push8, hu, isSpByte_false h.2.1 h.2.2, settleSp]
  rfl

/-- A push of a return address is what `Pushes` says. -/
theorem pushPc_ok (v : Word) (s : State) (h : StackByte s s.sp) (h' : StackByte s (s.sp - 1)) :
    ∃ w, pushPc v s = .ok w ∧ Pushes v s w := by
  obtain ⟨u, hu, st⟩ := storeByte_ok s.sp (lowByte v) s h.1
  have hp : region u.par (s.sp - 1) ≠ .unmapped := by rw [st.par]; exact h'.1
  obtain ⟨w, hw, st'⟩ := storeByte_ok (s.sp - 1) (highByte v) u hp
  refine ⟨{ w with sp := s.sp - 2 }, ?_, u, w, st, st', rfl⟩
  simp only [pushPc, hu, hw, isSpByte_false h.2.1 h.2.2, isSpByte_false h'.2.1 h'.2.2, settleSp]
  rfl

/-- A push of a return address where the stack lies in data memory. -/
theorem pushPc_memory (v : Word) (s : State) (h : region s.par s.sp = .memory)
    (h' : region s.par (s.sp - 1) = .memory) :
    pushPc v s = .ok { s with
      ram := Memory.write ramBlank (Memory.write ramBlank s.ram s.sp.toNat (lowByte v)) (s.sp - 1).toNat
        (highByte v)
      sp := s.sp - 2 } := by
  have n1 : isSpByte s.sp = false := by
    apply isSpByte_false <;> rintro e <;> rw [e] at h <;> simp at h
  have n2 : isSpByte (s.sp - 1) = false := by
    apply isSpByte_false <;> rintro e <;> rw [e] at h' <;> simp at h'
  have h'' : region (s.setRam (Memory.write ramBlank s.ram s.sp.toNat (lowByte v))).par (s.sp - 1) = .memory := h'
  simp only [pushPc, storeByte_memory _ _ _ h, storeByte_memory _ _ _ h'', n1, n2, settleSp]
  rfl

/-- A pop of one byte: the load at SP + 1, then SP one higher. -/
theorem pop8_ok (s : State) (h : StackByte s (s.sp + 1)) :
    ∃ v u, pop8 s = .ok (v, { u with sp := s.sp + 1 }) ∧ Loads (s.sp + 1) s v u := by
  obtain ⟨v, u, hu, ld⟩ := loadByte_ok (s.sp + 1) s h.1
  refine ⟨v, u, ?_, ld⟩
  simp only [pop8, popByteAt, hu, isSpByte_false h.2.1 h.2.2]
  rfl

theorem isReturnClash_false {a : Word} {b : Bool} (h1 : a ≠ 0x5D) (h2 : a ≠ 0x5E) (h3 : b = true → a ≠ 0x5F) :
    isReturnClash b a = false := by
  simp only [isReturnClash, isSpByte_false h1 h2, Bool.false_or]
  cases b
  · rfl
  · simpa using h3 rfl

/-- A pop of a return address: the two loads, then SP two higher. -/
theorem popPc_ok (b : Bool) (s : State) (h : StackByte s (s.sp + 1)) (h' : StackByte s (s.sp + 2))
    (hb : b = true → s.sp + 1 ≠ 0x5F ∧ s.sp + 2 ≠ 0x5F) :
    ∃ hi lo u w, popPc b s = .ok (joinBytes hi lo, { w with sp := s.sp + 2 }) ∧
      Loads (s.sp + 1) s hi u ∧ Loads (s.sp + 2) u lo w := by
  obtain ⟨hi, u, hu, ld⟩ := loadByte_ok (s.sp + 1) s h.1
  have hp : region u.par (s.sp + 2) ≠ .unmapped := by rw [Loads_state ld]; exact h'.1
  obtain ⟨lo, w, hw, ld'⟩ := loadByte_ok (s.sp + 2) u hp
  refine ⟨hi, lo, u, w, ?_, ld, ld'⟩
  simp only [popPc, popByteAt, hu, hw, Bool.false_eq_true, if_false, isReturnClash_false h.2.1 h.2.2 (fun e => (hb e).1),
    isReturnClash_false h'.2.1 h'.2.2 (fun e => (hb e).2)]
  rfl

/-! ### Skips and branches -/

/-- Where there is a word to look at, a skip completes, one, two or three words on. -/
theorem skip_ok (c : Bool) (s : State) (n : Word) (h : s.progWord (s.pc + 1) = some n) :
    skip c s = .next (if c then (if isTwoWord n then s.advance 3 3 else s.advance 2 2) else s.advance 1 1) := by
  simp only [skip, h]

/-- A skip that completes only moves pc. -/
theorem skip_next (c : Bool) (s t : State) (h : skip c s = .next t) :
    ∃ len cyc, t = s.advance len cyc := by
  unfold skip at h
  split at h
  · cases h
    split
    · split
      · exact ⟨3, 3, rfl⟩
      · exact ⟨2, 2, rfl⟩
    · exact ⟨1, 1, rfl⟩
  · split at h
    · cases h
    · cases h; exact ⟨1, 1, rfl⟩

/-- A relative target as a number: pc + 1 + k modulo 2^16, k signed (spec/41_branch.md R160). -/
theorem relTarget_toNat (n : Nat) (hn : n ≤ 16) (k : BitVec n) (pc : Word) :
    ((relTarget n k pc).toNat : Int) = ((pc.toNat : Int) + 1 + k.toInt) % 65536 := by
  have h1 : (k.signExtend 16).toInt = k.toInt := BitVec.toInt_signExtend_of_le hn
  have h2 := BitVec.toInt_eq_toNat_bmod (k.signExtend 16)
  have h3 : ((k.signExtend 16).toNat : Int) % 65536 = k.toInt % 65536 := by
    rw [← h1, h2, Int.bmod_def]
    split <;> omega
  simp only [relTarget, BitVec.toNat_add]
  have : (1#16).toNat = 1 := rfl
  have hlit : (BitVec.toNat (1 : Word)) = 1 := rfl
  rw [hlit]
  omega

/-! ### What an operation that completes has done -/

/-- A load that updates no pointer. -/
theorem loadPlain_next {len cyc : Nat} {d : Reg} {a : Word} {s t : State} (h : loadPlain len cyc d a s = .next t) :
    ∃ v u, Loads a s v u ∧ t = (u.setReg d v).advance len cyc := by
  unfold loadPlain at h
  split at h
  · cases h
  · rename_i v u hu
    cases h
    exact ⟨v, u, (loadByte_inv _ _ _ _ hu).2, rfl⟩

/-- A load that updates its pointer. -/
theorem loadUpdate_next {p : Ptr} {d : Reg} {a new : Word} {s t : State} (h : loadUpdate p d a new s = .next t) :
    ∃ v u, Loads a s v u ∧ t = (loadedInto p d a new v u).advance 1 2 := by
  unfold loadUpdate at h
  split at h
  · cases h
  · rename_i v u hu
    cases h
    exact ⟨v, u, (loadByte_inv _ _ _ _ hu).2, rfl⟩

/-- A store that updates no pointer. -/
theorem storePlain_next {len cyc : Nat} {r : Reg} {a : Word} {s t : State} (h : storePlain len cyc r a s = .next t) :
    ∃ u, Stores a (s.reg r) s u ∧ t = u.advance len cyc := by
  rw [storePlain, settle_eq_next] at h
  cases hu : storeByte a (s.reg r) s with
  | error f => rw [hu] at h; cases h
  | ok u => rw [hu] at h; cases h; exact ⟨u, (storeByte_inv _ _ _ _ hu).2, rfl⟩

/-- A store that updates its pointer. -/
theorem storeUpdate_next {p : Ptr} {r : Reg} {a new : Word} {s t : State} (h : storeUpdate p r a new s = .next t) :
    ∃ u, Stores a (storedByte p r s).1 (storedByte p r s).2 u ∧ t = (storedPtr p a new u).advance 1 2 := by
  rw [storeUpdate, settle_eq_next] at h
  cases hu : storeByte a (storedByte p r s).1 (storedByte p r s).2 with
  | error f => rw [hu] at h; cases h
  | ok u => rw [hu] at h; cases h; exact ⟨u, (storeByte_inv _ _ _ _ hu).2, rfl⟩

/-- A push of one byte. -/
theorem push8_next {v : Byte} {s t : State} (h : push8 v s = .ok t) :
    ∃ u, Stores s.sp v s u ∧ t = settleSp (isSpByte s.sp) (s.sp - 1) u := by
  unfold push8 at h
  split at h
  · cases h
  · rename_i u hu
    cases h
    exact ⟨u, (storeByte_inv _ _ _ _ hu).2, rfl⟩

/-- A push of a return address. -/
theorem pushPc_next {v : Word} {s t : State} (h : pushPc v s = .ok t) :
    ∃ u w, Stores s.sp (lowByte v) s u ∧ Stores (s.sp - 1) (highByte v) u w ∧
      t = settleSp (isSpByte s.sp || isSpByte (s.sp - 1)) (s.sp - 2) w := by
  unfold pushPc at h
  split at h
  · cases h
  · rename_i u hu
    split at h
    · cases h
    · rename_i w hw
      cases h
      exact ⟨u, w, (storeByte_inv _ _ _ _ hu).2, (storeByte_inv _ _ _ _ hw).2, rfl⟩

/-- A byte popped, whether open or not: nothing changes but what a device read leaves and the count of free values. -/
theorem popByteAt_next {c : Bool} {a : Word} {s t : State} {v : Byte} (h : popByteAt c a s = .ok (v, t)) :
    ∃ l e n, t = { s with devIn := l, trace := e, freeCount := n } := by
  unfold popByteAt at h
  split at h
  · cases h
  · rename_i w u hu
    have hs := Loads_state (loadByte_inv _ _ _ _ hu).2
    cases c <;> simp at h <;> obtain ⟨-, rfl⟩ := h <;> rw [hs] <;> exact ⟨_, _, _, rfl⟩

/-- A pop of one byte. -/
theorem pop8_next {s t : State} {v : Byte} (h : pop8 s = .ok (v, t)) :
    ∃ l e n, t = { s with devIn := l, trace := e, freeCount := n, sp := s.sp + 1 } := by
  unfold pop8 at h
  split at h
  · cases h
  · rename_i w u hu
    cases h
    obtain ⟨l, e, n, rfl⟩ := popByteAt_next hu
    exact ⟨l, e, n, rfl⟩

/-- A pop of a return address. -/
theorem popPc_next {b : Bool} {s t : State} {w : Word} (h : popPc b s = .ok (w, t)) :
    ∃ l e n, t = { s with devIn := l, trace := e, freeCount := n, sp := s.sp + 2 } := by
  unfold popPc at h
  split at h
  · cases h
  · rename_i x u hu
    split at h
    · cases h
    · rename_i y z hz
      cases h
      obtain ⟨_, _, _, rfl⟩ := popByteAt_next hu
      obtain ⟨l, e, n, rfl⟩ := popByteAt_next hz
      exact ⟨l, e, n, rfl⟩

/-- A skip on an I/O bit. -/
theorem skipIo_next {a : Word} {b : BitNo} {w : Bool} {s t : State} (h : skipIo a b w s = .next t) :
    ∃ v u len cyc, Loads a s v u ∧ t = u.advance len cyc := by
  unfold skipIo at h
  split at h
  · cases h
  · rename_i v u hu
    obtain ⟨l, c, rfl⟩ := skip_next _ _ _ h
    exact ⟨v, u, l, c, (loadByte_inv _ _ _ _ hu).2, rfl⟩

/-- A change of an I/O bit. -/
theorem changeIoBit_next {a : Word} {b : BitNo} {on : Bool} {s t : State} (h : changeIoBit a b on s = .next t) :
    ∃ v u w, Loads a s v u ∧ Stores a (putBit v b on) u w ∧ t = w.advance 1 2 := by
  unfold changeIoBit at h
  split at h
  · cases h
  · rename_i v u hu
    rw [settle_eq_next] at h
    cases hw : storeByte a (putBit v b on) u with
    | error f => rw [hw] at h; cases h
    | ok w =>
      rw [hw] at h
      cases h
      exact ⟨v, u, w, (loadByte_inv _ _ _ _ hu).2, (storeByte_inv _ _ _ _ hw).2, rfl⟩

/-- A call. -/
theorem callTo_next {ret target : Word} {cyc : Nat} {s t : State} (h : callTo ret target cyc s = .next t) :
    ∃ u, pushPc ret s = .ok u ∧ t = u.jump target cyc := by
  rw [callTo, settle_eq_next] at h
  cases hu : pushPc ret s with
  | error f => rw [hu] at h; cases h
  | ok u => rw [hu] at h; cases h; exact ⟨u, rfl, rfl⟩

/-! ### Where an operation is stuck -/

/-- A skip with no program word to look at (log 26). -/
theorem skip_outside (c : Bool) (s : State) (h : s.par.flashWords ≤ (s.pc + 1).toNat) :
    skip c s = if c then .fault (.unmappedProgram (2 * (s.pc + 1).toNat)) else .next (s.advance 1 1) := by
  have hn : s.progWord (s.pc + 1) = none := by rw [State.progWord, if_neg (by omega)]
  simp only [skip, hn]

/-- A push of a return address one of whose bytes has no place (log 21). -/
theorem pushPc_stuck (v : Word) (s : State) :
    (region s.par s.sp = .unmapped → pushPc v s = .error (.unmappedData s.sp)) ∧
    (region s.par s.sp ≠ .unmapped → region s.par (s.sp - 1) = .unmapped →
      pushPc v s = .error (.unmappedData (s.sp - 1))) := by
  refine ⟨fun h => ?_, fun h h2 => ?_⟩
  · simp only [pushPc, storeByte_unmapped _ _ _ h]
  · obtain ⟨u, hu, st⟩ := storeByte_ok s.sp (lowByte v) s h
    rw [← st.par] at h2
    simp only [pushPc, hu, storeByte_unmapped _ _ _ h2]

/-- A pop of a return address whose second byte has no place (log 21). -/
theorem popPc_stuck (b : Bool) (s : State) (h : region s.par (s.sp + 1) ≠ .unmapped)
    (h2 : region s.par (s.sp + 2) = .unmapped) : popPc b s = .error (.unmappedData (s.sp + 2)) := by
  obtain ⟨v, u, hu, st⟩ := loadByte_ok (s.sp + 1) s h
  have hp : u.par = s.par := by rw [Loads_state st]
  rw [← hp] at h2
  have h3 : region u.useFree.par (s.sp + 2) = .unmapped := h2
  cases e : isReturnClash b (s.sp + 1) <;>
    simp only [popPc, popByteAt, hu, e, if_true, if_false, Bool.false_eq_true, loadByte_unmapped _ _ h2,
      loadByte_unmapped _ _ h3]

/-! ### The boundary -/

/-- Where the next boundary runs the instruction, the step is that. -/
theorem step_runs (s : State) (h : s.RunsInstruction) : step s = runInstr s.sample := by
  obtain ⟨hr, ha, hi⟩ := h
  simp only [step, runStep, boundary, hr, sample_asleep, ha, sample_flag, sample_inhibit,
    Bool.false_eq_true, if_false]
  split
  · rename_i hI
    rcases hi with hi | hi | hi
    · rw [hI] at hi; cases hi
    · rw [hi]
    · split
      · simp [hi]
      · rfl
  · rfl

/-- The words fetched do not depend on the lines. -/
@[simp] theorem fetchWords_sample (s : State) : fetchWords s.sample = fetchWords s := by
  simp [fetchWords]

/-- The pending vector is the lowest of those that request and exist. -/
theorem pending_eq_some (s : State) (n : Nat) :
    s.pending = some n ↔
      (n ∈ s.pins.irq ∧ 1 ≤ n ∧ n < s.par.nVectors) ∧
        ∀ m ∈ s.pins.irq, 1 ≤ m → m < s.par.nVectors → n ≤ m := by
  simp [State.pending, List.min?_eq_some_iff]

/-! ### The reset event -/

@[simp] theorem resetEvent_pc (s : State) : (resetEvent s).pc = s.par.resetVector := rfl
@[simp] theorem resetEvent_sreg (s : State) : (resetEvent s).sreg = 0 := rfl
@[simp] theorem resetEvent_sp (s : State) : (resetEvent s).sp = s.par.spReset := rfl
@[simp] theorem resetEvent_rampz (s : State) : (resetEvent s).rampz = 0 := rfl
@[simp] theorem resetEvent_ram (s : State) : (resetEvent s).ram = [] := rfl
@[simp] theorem resetEvent_inhibit (s : State) : (resetEvent s).inhibit = false := rfl
@[simp] theorem resetEvent_asleep (s : State) : (resetEvent s).asleep = false := rfl
@[simp] theorem resetEvent_flash (s : State) : (resetEvent s).flash = s.flash := by simp only [resetEvent]
@[simp] theorem resetEvent_par (s : State) : (resetEvent s).par = s.par := by simp only [resetEvent]
@[simp] theorem resetEvent_pins (s : State) : (resetEvent s).pins = s.pins := by simp only [resetEvent]
@[simp] theorem resetEvent_inputs (s : State) : (resetEvent s).inputs = s.inputs := by simp only [resetEvent]
@[simp] theorem resetEvent_trace (s : State) : (resetEvent s).trace = .reset :: s.trace := rfl
@[simp] theorem resetEvent_resets (s : State) : (resetEvent s).resets = s.resets + 1 := rfl
@[simp] theorem resetEvent_flashByte (a : Nat) (s : State) : (resetEvent s).flashByte a = s.flashByte a := by
  simp only [State.flashByte, resetEvent_flash]
@[simp] theorem resetEvent_ramByte (a : Nat) (s : State) :
    (resetEvent s).ramByte a = Config.ramAtReset (s.resets + 1) a := rfl
@[simp] theorem resetEvent_reg (i : Reg) (s : State) :
    (resetEvent s).reg i = Config.regAtReset (s.resets + 1) i := by
  simp [State.reg, resetEvent]

/-- Where reset is asserted, the step is the reset event. -/
theorem step_reset (s : State) (h : s.sample.pins.reset = true) : step s = .next (resetEvent s.sample) := by
  simp only [step, runStep, boundary, h, if_true]

end Sys2Proof.Laws
end

