-- ==== Sys2Proof/Laws/PerInstr.lean ====
section
/-! SUPPORT. The per-instruction family WordShape: what is true of each instruction's words as syntax. -/

namespace Sys2Proof.Laws.WordShape

open Sys2Proof

/-- A well-formed instruction's parent is well formed and its own parent, has the same words, and the words are one or
two. -/
def Statement (i : Instr) : Prop :=
  wellFormed i = true →
    wellFormed (canonical i) = true ∧ canonical (canonical i) = canonical i ∧
      encode (canonical i) = encode i ∧ 1 ≤ (encode i).length ∧ (encode i).length ≤ 2

theorem words_length (i : Instr) : 1 ≤ (encode i).length ∧ (encode i).length ≤ 2 := by
  cases i <;> exact ⟨Nat.le_add_left 1 _, by simp [encode, encAbs22, encLdSt16]⟩

theorem holds (i : Instr) : Statement i := by
  intro h
  refine ⟨?_, ?_, ?_, (words_length i).1, (words_length i).2⟩
  · cases i <;> exact h
  · cases i <;> rfl
  · cases i <;> rfl

theorem add (d : Reg) (r : Reg) : Statement (.add d r) := holds _

theorem adc (d : Reg) (r : Reg) : Statement (.adc d r) := holds _

theorem adiw (d : Reg) (k : BitVec 6) : Statement (.adiw d k) := holds _

theorem sub (d : Reg) (r : Reg) : Statement (.sub d r) := holds _

theorem subi (d : Reg) (k : Byte) : Statement (.subi d k) := holds _

theorem sbc (d : Reg) (r : Reg) : Statement (.sbc d r) := holds _

theorem sbci (d : Reg) (k : Byte) : Statement (.sbci d k) := holds _

theorem sbiw (d : Reg) (k : BitVec 6) : Statement (.sbiw d k) := holds _

theorem and (d : Reg) (r : Reg) : Statement (.and d r) := holds _

theorem andi (d : Reg) (k : Byte) : Statement (.andi d k) := holds _

theorem or (d : Reg) (r : Reg) : Statement (.or d r) := holds _

theorem ori (d : Reg) (k : Byte) : Statement (.ori d k) := holds _

theorem eor (d : Reg) (r : Reg) : Statement (.eor d r) := holds _

theorem com (d : Reg) : Statement (.com d) := holds _

theorem neg (d : Reg) : Statement (.neg d) := holds _

theorem sbr (d : Reg) (k : Byte) : Statement (.sbr d k) := holds _

theorem cbr (d : Reg) (k : Byte) : Statement (.cbr d k) := holds _

theorem inc (d : Reg) : Statement (.inc d) := holds _

theorem dec (d : Reg) : Statement (.dec d) := holds _

theorem tst (d : Reg) : Statement (.tst d) := holds _

theorem clr (d : Reg) : Statement (.clr d) := holds _

theorem ser (d : Reg) : Statement (.ser d) := holds _

theorem mul (d : Reg) (r : Reg) : Statement (.mul d r) := holds _

theorem muls (d : Reg) (r : Reg) : Statement (.muls d r) := holds _

theorem mulsu (d : Reg) (r : Reg) : Statement (.mulsu d r) := holds _

theorem fmul (d : Reg) (r : Reg) : Statement (.fmul d r) := holds _

theorem fmuls (d : Reg) (r : Reg) : Statement (.fmuls d r) := holds _

theorem fmulsu (d : Reg) (r : Reg) : Statement (.fmulsu d r) := holds _

theorem rjmp (k : BitVec 12) : Statement (.rjmp k) := holds _

theorem ijmp : Statement (.ijmp) := holds _

theorem jmp (k : BitVec 22) : Statement (.jmp k) := holds _

theorem rcall (k : BitVec 12) : Statement (.rcall k) := holds _

theorem icall : Statement (.icall) := holds _

theorem call (k : BitVec 22) : Statement (.call k) := holds _

theorem ret : Statement (.ret) := holds _

theorem reti : Statement (.reti) := holds _

theorem cpse (d : Reg) (r : Reg) : Statement (.cpse d r) := holds _

theorem cp (d : Reg) (r : Reg) : Statement (.cp d r) := holds _

theorem cpc (d : Reg) (r : Reg) : Statement (.cpc d r) := holds _

theorem cpi (d : Reg) (k : Byte) : Statement (.cpi d k) := holds _

theorem sbrc (r : Reg) (b : BitNo) : Statement (.sbrc r b) := holds _

theorem sbrs (r : Reg) (b : BitNo) : Statement (.sbrs r b) := holds _

theorem sbic (a : BitVec 5) (b : BitNo) : Statement (.sbic a b) := holds _

theorem sbis (a : BitVec 5) (b : BitNo) : Statement (.sbis a b) := holds _

theorem brbs (sb : BitNo) (k : BitVec 7) : Statement (.brbs sb k) := holds _

theorem brbc (sb : BitNo) (k : BitVec 7) : Statement (.brbc sb k) := holds _

theorem breq (k : BitVec 7) : Statement (.breq k) := holds _

theorem brne (k : BitVec 7) : Statement (.brne k) := holds _

theorem brcs (k : BitVec 7) : Statement (.brcs k) := holds _

theorem brcc (k : BitVec 7) : Statement (.brcc k) := holds _

theorem brsh (k : BitVec 7) : Statement (.brsh k) := holds _

theorem brlo (k : BitVec 7) : Statement (.brlo k) := holds _

theorem brmi (k : BitVec 7) : Statement (.brmi k) := holds _

theorem brpl (k : BitVec 7) : Statement (.brpl k) := holds _

theorem brge (k : BitVec 7) : Statement (.brge k) := holds _

theorem brlt (k : BitVec 7) : Statement (.brlt k) := holds _

theorem brhs (k : BitVec 7) : Statement (.brhs k) := holds _

theorem brhc (k : BitVec 7) : Statement (.brhc k) := holds _

theorem brts (k : BitVec 7) : Statement (.brts k) := holds _

theorem brtc (k : BitVec 7) : Statement (.brtc k) := holds _

theorem brvs (k : BitVec 7) : Statement (.brvs k) := holds _

theorem brvc (k : BitVec 7) : Statement (.brvc k) := holds _

theorem brie (k : BitVec 7) : Statement (.brie k) := holds _

theorem brid (k : BitVec 7) : Statement (.brid k) := holds _

theorem nop : Statement (.nop) := holds _

theorem sleep : Statement (.sleep) := holds _

theorem mov (d : Reg) (r : Reg) : Statement (.mov d r) := holds _

theorem movw (d : Reg) (r : Reg) : Statement (.movw d r) := holds _

theorem ldi (d : Reg) (k : Byte) : Statement (.ldi d k) := holds _

theorem ldX (d : Reg) : Statement (.ldX d) := holds _

theorem ldXInc (d : Reg) : Statement (.ldXInc d) := holds _

theorem ldXDec (d : Reg) : Statement (.ldXDec d) := holds _

theorem ldY (d : Reg) : Statement (.ldY d) := holds _

theorem ldYInc (d : Reg) : Statement (.ldYInc d) := holds _

theorem ldYDec (d : Reg) : Statement (.ldYDec d) := holds _

theorem lddY (d : Reg) (q : BitVec 6) : Statement (.lddY d q) := holds _

theorem ldZ (d : Reg) : Statement (.ldZ d) := holds _

theorem ldZInc (d : Reg) : Statement (.ldZInc d) := holds _

theorem ldZDec (d : Reg) : Statement (.ldZDec d) := holds _

theorem lddZ (d : Reg) (q : BitVec 6) : Statement (.lddZ d q) := holds _

theorem lds (d : Reg) (k : Word) : Statement (.lds d k) := holds _

theorem stX (r : Reg) : Statement (.stX r) := holds _

theorem stXInc (r : Reg) : Statement (.stXInc r) := holds _

theorem stXDec (r : Reg) : Statement (.stXDec r) := holds _

theorem stY (r : Reg) : Statement (.stY r) := holds _

theorem stYInc (r : Reg) : Statement (.stYInc r) := holds _

theorem stYDec (r : Reg) : Statement (.stYDec r) := holds _

theorem stdY (q : BitVec 6) (r : Reg) : Statement (.stdY q r) := holds _

theorem stZ (r : Reg) : Statement (.stZ r) := holds _

theorem stZInc (r : Reg) : Statement (.stZInc r) := holds _

theorem stZDec (r : Reg) : Statement (.stZDec r) := holds _

theorem stdZ (q : BitVec 6) (r : Reg) : Statement (.stdZ q r) := holds _

theorem sts (k : Word) (r : Reg) : Statement (.sts k r) := holds _

theorem lpmR0 : Statement (.lpmR0) := holds _

theorem lpm (d : Reg) : Statement (.lpm d) := holds _

theorem lpmInc (d : Reg) : Statement (.lpmInc d) := holds _

theorem elpmR0 : Statement (.elpmR0) := holds _

theorem elpm (d : Reg) : Statement (.elpm d) := holds _

theorem elpmInc (d : Reg) : Statement (.elpmInc d) := holds _

theorem spm : Statement (.spm) := holds _

theorem inp (d : Reg) (a : BitVec 6) : Statement (.inp d a) := holds _

theorem out (a : BitVec 6) (r : Reg) : Statement (.out a r) := holds _

theorem push (r : Reg) : Statement (.push r) := holds _

theorem pop (d : Reg) : Statement (.pop d) := holds _

theorem sbi (a : BitVec 5) (b : BitNo) : Statement (.sbi a b) := holds _

theorem cbi (a : BitVec 5) (b : BitNo) : Statement (.cbi a b) := holds _

theorem lsl (d : Reg) : Statement (.lsl d) := holds _

theorem lsr (d : Reg) : Statement (.lsr d) := holds _

theorem rol (d : Reg) : Statement (.rol d) := holds _

theorem ror (d : Reg) : Statement (.ror d) := holds _

theorem asr (d : Reg) : Statement (.asr d) := holds _

theorem swap (d : Reg) : Statement (.swap d) := holds _

theorem bset (sb : BitNo) : Statement (.bset sb) := holds _

theorem bclr (sb : BitNo) : Statement (.bclr sb) := holds _

theorem bst (r : Reg) (b : BitNo) : Statement (.bst r b) := holds _

theorem bld (d : Reg) (b : BitNo) : Statement (.bld d b) := holds _

theorem sec : Statement (.sec) := holds _

theorem clc : Statement (.clc) := holds _

theorem sen : Statement (.sen) := holds _

theorem cln : Statement (.cln) := holds _

theorem sez : Statement (.sez) := holds _

theorem clz : Statement (.clz) := holds _

theorem sei : Statement (.sei) := holds _

theorem cli : Statement (.cli) := holds _

theorem ses : Statement (.ses) := holds _

theorem cls : Statement (.cls) := holds _

theorem sev : Statement (.sev) := holds _

theorem clv : Statement (.clv) := holds _

theorem set : Statement (.set) := holds _

theorem clt : Statement (.clt) := holds _

theorem seh : Statement (.seh) := holds _

theorem clh : Statement (.clh) := holds _

end Sys2Proof.Laws.WordShape
end

