-- ==== Sys2Proof/Tests/Slice0.lean ====
section
/-! SUPPORT. The model's own tests: the checks of WellFormed refuse ill-formed terms, words of the spec decode to the
instructions they stand for, a few steps of spec/95_test_vectors.md give what it says, and a witness for the hypotheses
of each statement. -/

namespace Sys2Proof.Tests

open Sys2Proof.Machine

/-! ### WellFormed refuses -/

/-- R15 and R17 for an immediate instruction (spec/30_encoding.md R94). -/
theorem test_immediate_wants_upper :
    [Instr.subi 15 0, .sbci 15 0, .andi 15 0, .ori 15 0, .sbr 15 0, .cbr 15 0, .ser 15, .cpi 15 0, .ldi 15 0].all
      (fun i => !wellFormed i) = true ∧ wellFormed (.ldi 16 0) = true := by decide

/-- ADIW and SBIW want R24, R26, R28 or R30 (R96). -/
theorem test_word_arithmetic_wants_pair :
    [Instr.adiw 22 0, .adiw 25 0, .sbiw 31 0].all (fun i => !wellFormed i) = true ∧
      wellFormed (.sbiw 30 0) = true := by decide

/-- MOVW wants even registers (R97). -/
theorem test_movw_wants_even :
    [Instr.movw 1 0, .movw 0 31].all (fun i => !wellFormed i) = true ∧ wellFormed (.movw 30 0) = true := by
  decide

/-- MULS wants R16 to R31; MULSU and the fractional forms R16 to R23 (R97). -/
theorem test_multiplies_want_their_registers :
    [Instr.muls 15 16, .muls 16 15, .mulsu 24 16, .mulsu 16 15, .fmul 24 16, .fmul 16 24, .fmuls 15 16, .fmuls 16 24,
      .fmulsu 16 24, .fmulsu 15 16].all (fun i => !wellFormed i) = true ∧
      wellFormed (.mulsu 23 16) = true := by decide

/-! ### Decoding and encoding -/

/-- Each list of words decodes to the instruction beside it (to the parent, for an alias) and is its encoding. -/
def wordsStandFor (l : List (List Word × Instr)) : Bool :=
  l.all (fun p => decide (decode p.1 = .ok (canonical p.2, [])) && decide (encode p.2 = p.1))

/-- Words of spec/95_test_vectors.md, R125 to R142. -/
theorem test_decode_arith1 : wordsStandFor [
    ([0x0F01], .add 16 17), ([0x1C23], .adc 2 3), ([0x9601], .adiw 24 1), ([0x1B01], .sub 16 17),
    ([0x5100], .subi 16 0x10), ([0x0831], .sbc 3 1), ([0x4010], .sbci 17 0), ([0x9721], .sbiw 28 1),
    ([0x2045], .and 4 5), ([0x704F], .andi 20 0x0F), ([0x2845], .or 4 5), ([0x6840], .ori 20 0x80),
    ([0x2467], .eor 6 7), ([0x9480], .com 8), ([0x9491], .neg 9), ([0x6801], .sbr 16 0x81),
    ([0x7F00], .cbr 16 0x0F), ([0x94A3], .inc 10)] = true := by decide

/-- Words of spec/95_test_vectors.md, R143 to R152. -/
theorem test_decode_arith2 : wordsStandFor [
    ([0x94AA], .dec 10), ([0x20BB], .tst 11), ([0x24BB], .clr 11), ([0xEF1F], .ser 17), ([0x9C23], .mul 2 3),
    ([0x0201], .muls 16 17), ([0x0301], .mulsu 16 17), ([0x0309], .fmul 16 17), ([0x0381], .fmuls 16 17),
    ([0x0389], .fmulsu 16 17)] = true := by decide

/-- Words of spec/95_test_vectors.md, R163 to R180. -/
theorem test_decode_branch1 : wordsStandFor [
    ([0xCFFF], .rjmp (-1)), ([0x9409], .ijmp), ([0x940C, 0x1234], .jmp 0x1234), ([0xD010], .rcall 0x010),
    ([0x9509], .icall), ([0x940E, 0x0200], .call 0x0200), ([0x9508], .ret), ([0x9518], .reti),
    ([0x1001], .cpse 0 1), ([0x1701], .cp 16 17), ([0x0713], .cpc 17 19), ([0x3100], .cpi 16 0x10),
    ([0xFC07], .sbrc 0 7), ([0xFF00], .sbrs 16 0), ([0x9983], .sbic 0x10 3), ([0x9BFF], .sbis 0x1F 7),
    ([0xF019], .brbs 1 3), ([0xF7E0], .brbc 0 (-4))] = true := by decide

/-- Words of spec/95_test_vectors.md, R181 to R198. -/
theorem test_decode_branch2 : wordsStandFor [
    ([0xF029], .breq 5), ([0xF7F1], .brne (-2)), ([0xF008], .brcs 1), ([0xF008], .brlo 1), ([0xF408], .brcc 1),
    ([0xF408], .brsh 1), ([0xF012], .brmi 2), ([0xF412], .brpl 2), ([0xF41C], .brge 3), ([0xF01C], .brlt 3),
    ([0xF025], .brhs 4), ([0xF425], .brhc 4), ([0xF026], .brts 4), ([0xF426], .brtc 4), ([0xF023], .brvs 4),
    ([0xF423], .brvc 4), ([0xF027], .brie 4), ([0xF427], .brid 4)] = true := by decide

/-- Words of spec/95_test_vectors.md, R210 to R211. -/
theorem test_decode_control1 : wordsStandFor [
    ([0x0000], .nop), ([0x9588], .sleep)] = true := by decide

/-- Words of spec/95_test_vectors.md, R218 to R235. -/
theorem test_decode_transfer1 : wordsStandFor [
    ([0x2E1F], .mov 1 31), ([0x01CF], .movw 24 30), ([0xEA05], .ldi 16 0xA5), ([0x905C], .ldX 5),
    ([0x905D], .ldXInc 5), ([0x905E], .ldXDec 5), ([0x8068], .ldY 6), ([0x9069], .ldYInc 6),
    ([0x906A], .ldYDec 6), ([0xAC6F], .lddY 6 63), ([0x8070], .ldZ 7), ([0x9071], .ldZInc 7),
    ([0x9072], .ldZDec 7), ([0x8075], .lddZ 7 5), ([0x9100, 0x0300], .lds 16 0x0300), ([0x925C], .stX 5),
    ([0x925D], .stXInc 5), ([0x925E], .stXDec 5)] = true := by decide

/-- Words of spec/95_test_vectors.md, R236 to R254. -/
theorem test_decode_transfer2 : wordsStandFor [
    ([0x8268], .stY 6), ([0x9269], .stYInc 6), ([0x926A], .stYDec 6), ([0x826A], .stdY 2 6), ([0x8270], .stZ 7),
    ([0x9271], .stZInc 7), ([0x9272], .stZDec 7), ([0xAE77], .stdZ 63 7), ([0x9300, 0x0300], .sts 0x0300 16),
    ([0x95C8], .lpmR0), ([0x9104], .lpm 16), ([0x9105], .lpmInc 16), ([0x95D8], .elpmR0), ([0x9116], .elpm 17),
    ([0x9117], .elpmInc 17), ([0xB70F], .inp 16 0x3F), ([0xBF0F], .out 0x3F 16), ([0x930F], .push 16)] = true := by decide

/-- Words of spec/95_test_vectors.md, R255 to R251. -/
theorem test_decode_transfer3 : wordsStandFor [
    ([0x911F], .pop 17), ([0x95E8], .spm)] = true := by decide

/-- Words of spec/95_test_vectors.md, R267 to R284. -/
theorem test_decode_bits1 : wordsStandFor [
    ([0x9AC3], .sbi 0x18 3), ([0x98C0], .cbi 0x18 0), ([0x0F00], .lsl 16), ([0x9506], .lsr 16),
    ([0x1F00], .rol 16), ([0x9507], .ror 16), ([0x9505], .asr 16), ([0x9502], .swap 16), ([0x9448], .bset 4),
    ([0x94C8], .bclr 4), ([0xFA37], .bst 3 7), ([0xF842], .bld 4 2), ([0x9408], .sec), ([0x9488], .clc),
    ([0x9428], .sen), ([0x94A8], .cln), ([0x9418], .sez), ([0x9498], .clz)] = true := by decide

/-- Words of spec/95_test_vectors.md, R285 to R294. -/
theorem test_decode_bits2 : wordsStandFor [
    ([0x9478], .sei), ([0x94F8], .cli), ([0x9448], .ses), ([0x94C8], .cls), ([0x9438], .sev), ([0x94B8], .clv),
    ([0x9468], .set), ([0x94E8], .clt), ([0x9458], .seh), ([0x94D8], .clh)] = true := by decide

/-- The ends of the operand fields: R31, K = 255, K = 63, q = 63, A = 63, the offsets' sign bits, a 22-bit address. -/
theorem test_decode_field_ends : wordsStandFor [
    ([0x0FFF], .add 31 31), ([0xEFFF], .ldi 31 255), ([0x97FF], .sbiw 30 63), ([0xADFF], .lddY 31 63),
    ([0xBFFF], .out 63 31), ([0xC800], .rjmp (-2048)), ([0xF607], .brbc 7 (-64)), ([0x95FD, 0x1234], .jmp 0x3F1234),
    ([0x01FF], .movw 30 30), ([0x02FF], .muls 31 31), ([0x0377], .mulsu 23 23), ([0x94F8], .bclr 7)] = true := by
  decide

/-- Reserved words of spec/95_test_vectors.md section 2.7 do not decode. -/
theorem test_reserved_words :
    [0x9598, 0x95A8, 0x9419, 0x9519, 0x95F8, 0x0001, 0x00FF, 0xFF08, 0xF808, 0xFA08, 0xFC08, 0x9003, 0x9008, 0x900B,
      0x9204, 0x9207, 0x9404, 0x940B].all
      (fun w : Word => decide (decode [w] = .error (.reserved w))) = true := by decide

/-- A two-word instruction without its second word does not decode. -/
theorem test_second_word_missing : decode [0x940E] = .error (.noSecondWord 0x940E) := by decide

/-! ### Steps of spec/95_test_vectors.md -/

/-- The tables' launch state: pc 0x0100, SP 0x10FF, the given SREG and registers. -/
def start (sreg : Byte) (rs : List (Reg × Byte)) : State :=
  rs.foldl (fun s p => s.setReg p.1 p.2) { State.reset with pc := 0x0100, sp := 0x10FF, sreg := sreg }

/-- `i` run in `s` completes with this pc, this SREG and these registers. -/
def gives (i : Instr) (s : State) (pc : Word) (sreg : Byte) (rs : List (Reg × Byte)) : Bool :=
  match exec i s with
  | .next t => t.pc == pc && t.sreg == sreg && rs.all (fun p => t.reg p.1 == p.2)
  | _ => false

/-- `i` run in `s` completes with these bytes of data memory, SP and pc. -/
def leaves (i : Instr) (s : State) (pc sp : Word) (m : List Host.Cell) : Bool :=
  match exec i s with
  | .next t => t.pc == pc && t.sp == sp && t.ram == m
  | _ => false

/-- ADD, ADC (R125, R126). -/
theorem test_add :
    gives (.add 16 17) (start 0x00 [(16, 0x7F), (17, 0x01)]) 0x0101 0x2C [(16, 0x80)] = true ∧
    gives (.add 16 17) (start 0xC0 [(16, 0x80), (17, 0x80)]) 0x0101 0xDB [(16, 0x00)] = true ∧
    gives (.adc 2 3) (start 0x01 [(2, 0xFF)]) 0x0101 0x23 [(2, 0x00)] = true ∧
    gives (.adc 2 3) (start 0x00 [(2, 0x7F), (3, 0x7F)]) 0x0101 0x2C [(2, 0xFE)] = true := by decide

/-- ADIW, SBIW (R127, R132). -/
theorem test_word_arithmetic :
    gives (.adiw 24 1) (start 0x00 [(24, 0xFF), (25, 0x7F)]) 0x0101 0x0C [(24, 0x00), (25, 0x80)] = true ∧
    gives (.adiw 30 63) (start 0x20 [(30, 0xC1)]) 0x0101 0x20 [(30, 0x00), (31, 0x01)] = true ∧
    gives (.sbiw 28 1) (start 0x00 []) 0x0101 0x15 [(28, 0xFF), (29, 0xFF)] = true ∧
    gives (.sbiw 28 1) (start 0x00 [(29, 0x80)]) 0x0101 0x18 [(28, 0xFF), (29, 0x7F)] = true := by decide

/-- SUB, SUBI, SBC, SBCI, NEG (R128 to R131, R139). -/
theorem test_subtract :
    gives (.sub 16 17) (start 0x00 [(16, 0x80), (17, 0x01)]) 0x0101 0x38 [(16, 0x7F)] = true ∧
    gives (.subi 31 0xFF) (start 0x00 []) 0x0101 0x21 [(31, 0x01)] = true ∧
    gives (.sbc 3 1) (start 0x00 []) 0x0101 0x00 [(3, 0x00)] = true ∧
    gives (.sbc 3 1) (start 0x03 []) 0x0101 0x35 [(3, 0xFF)] = true ∧
    gives (.sbci 17 0x01) (start 0x03 [(17, 0x02)]) 0x0101 0x02 [(17, 0x00)] = true ∧
    gives (.neg 9) (start 0x00 [(9, 0x80)]) 0x0101 0x0D [(9, 0x80)] = true ∧
    gives (.neg 9) (start 0x00 [(9, 0x10)]) 0x0101 0x15 [(9, 0xF0)] = true := by decide

/-- AND, ANDI, OR, ORI, EOR, SBR, CBR, TST, CLR, SER, COM (R133 to R138, R140, R141, R144 to R146). -/
theorem test_logic :
    gives (.and 4 5) (start 0x2D [(4, 0xF0), (5, 0x0F)]) 0x0101 0x23 [(4, 0x00)] = true ∧
    gives (.andi 20 0x0F) (start 0x00 [(20, 0xA5)]) 0x0101 0x00 [(20, 0x05)] = true ∧
    gives (.or 4 5) (start 0x08 [(4, 0x80), (5, 0x01)]) 0x0101 0x14 [(4, 0x81)] = true ∧
    gives (.ori 20 0x80) (start 0x00 [(20, 0x01)]) 0x0101 0x14 [(20, 0x81)] = true ∧
    gives (.eor 6 7) (start 0x01 [(6, 0xAA), (7, 0xAA)]) 0x0101 0x03 [(6, 0x00)] = true ∧
    gives (.sbr 16 0x81) (start 0x00 [(16, 0x10)]) 0x0101 0x14 [(16, 0x91)] = true ∧
    gives (.cbr 16 0x0F) (start 0x01 [(16, 0xFF)]) 0x0101 0x15 [(16, 0xF0)] = true ∧
    gives (.tst 11) (start 0x03 [(11, 0x80)]) 0x0101 0x15 [(11, 0x80)] = true ∧
    gives (.clr 11) (start 0x0D [(11, 0x5A)]) 0x0101 0x03 [(11, 0x00)] = true ∧
    gives (.ser 17) (start 0xFF []) 0x0101 0xFF [(17, 0xFF)] = true ∧
    gives (.com 8) (start 0x20 [(8, 0x55)]) 0x0101 0x35 [(8, 0xAA)] = true := by decide

/-- INC, DEC (R142, R143). -/
theorem test_count :
    gives (.inc 10) (start 0x01 [(10, 0x7F)]) 0x0101 0x0D [(10, 0x80)] = true ∧
    gives (.dec 10) (start 0x00 [(10, 0x80)]) 0x0101 0x18 [(10, 0x7F)] = true := by decide

/-- MUL, MULS, MULSU (R147 to R149). -/
theorem test_multiply :
    gives (.mul 2 3) (start 0x00 [(2, 0xFF), (3, 0xFF)]) 0x0101 0x01 [(0, 0x01), (1, 0xFE)] = true ∧
    gives (.mul 0 1) (start 0x00 [(0, 0x10), (1, 0x10)]) 0x0101 0x00 [(0, 0x00), (1, 0x01)] = true ∧
    gives (.muls 16 17) (start 0x00 [(16, 0xFF), (17, 0x01)]) 0x0101 0x01 [(0, 0xFF), (1, 0xFF)] = true ∧
    gives (.mulsu 23 16) (start 0x00 [(16, 0xFF), (23, 0x80)]) 0x0101 0x01 [(0, 0x80), (1, 0x80)] = true := by decide

/-- FMUL, FMULS, FMULSU (R150 to R152). -/
theorem test_multiply_fractional :
    gives (.fmul 16 17) (start 0x00 [(16, 0xFF), (17, 0xFF)]) 0x0101 0x01 [(0, 0x02), (1, 0xFC)] = true ∧
    gives (.fmuls 16 17) (start 0x00 [(16, 0x80), (17, 0x80)]) 0x0101 0x00 [(0, 0x00), (1, 0x80)] = true ∧
    gives (.fmulsu 16 17) (start 0x00 [(16, 0x80), (17, 0x80)]) 0x0101 0x01 [(0, 0x00), (1, 0x80)] = true := by decide

/-- CP, CPC, CPI (R172 to R174). -/
theorem test_compare :
    gives (.cp 16 17) (start 0x00 [(16, 0x80), (17, 0x01)]) 0x0101 0x38 [(16, 0x80)] = true ∧
    gives (.cpc 17 19) (start 0x03 [(17, 0x12), (19, 0x12)]) 0x0101 0x35 [(17, 0x12)] = true ∧
    gives (.cpi 16 0x80) (start 0x00 [(16, 0x7F)]) 0x0101 0x0D [(16, 0x7F)] = true := by decide

/-- RJMP, IJMP, JMP (R163 to R165). -/
theorem test_jump :
    gives (.rjmp (-2048)) (start 0x00 []) 0xF901 0x00 [] = true ∧
    gives (.ijmp) (start 0x00 [(30, 0x34), (31, 0x12)]) 0x1234 0x00 [] = true ∧
    gives (.jmp 0x3F1234) (start 0x00 []) 0x1234 0x00 [] = true := by decide

/-- Conditional branches, taken and not (R179 to R198). -/
theorem test_branch :
    gives (.brbs 1 3) (start 0x02 []) 0x0104 0x02 [] = true ∧
    gives (.brbc 7 (-64)) (start 0x00 []) 0x00C1 0x00 [] = true ∧
    gives (.brge 3) (start 0x0C []) 0x0104 0x0C [] = true ∧
    gives (.brge 3) (start 0x14 []) 0x0101 0x14 [] = true ∧
    gives (.brlt 3) (start 0x14 []) 0x0104 0x14 [] = true ∧
    gives (.brcc 1) (start 0x01 []) 0x0101 0x01 [] = true := by decide

/-- MOV, MOVW, LDI, SWAP (R218 to R220, R274). -/
theorem test_move :
    gives (.mov 1 31) (start 0xFF [(31, 0xAB)]) 0x0101 0xFF [(1, 0xAB)] = true ∧
    gives (.movw 24 30) (start 0x00 [(30, 0x34), (31, 0x12)]) 0x0101 0x00 [(24, 0x34), (25, 0x12)] = true ∧
    gives (.ldi 16 0xA5) (start 0x02 []) 0x0101 0x02 [(16, 0xA5)] = true ∧
    gives (.swap 16) (start 0xFF [(16, 0xA5)]) 0x0101 0xFF [(16, 0x5A)] = true := by decide

/-- LSL, LSR, ROL, ROR, ASR (R269 to R273). -/
theorem test_shift :
    gives (.lsl 16) (start 0x00 [(16, 0x88)]) 0x0101 0x39 [(16, 0x10)] = true ∧
    gives (.lsr 16) (start 0x25 [(16, 0x80)]) 0x0101 0x20 [(16, 0x40)] = true ∧
    gives (.rol 16) (start 0x01 [(16, 0x80)]) 0x0101 0x19 [(16, 0x01)] = true ∧
    gives (.ror 16) (start 0x01 [(16, 0x02)]) 0x0101 0x0C [(16, 0x81)] = true ∧
    gives (.asr 16) (start 0x00 [(16, 0x81)]) 0x0101 0x15 [(16, 0xC0)] = true := by decide

/-- BSET, BCLR, BST, BLD, SET, CLH (R275 to R278, R291, R294). -/
theorem test_flag_bits :
    gives (.bset 4) (start 0x00 []) 0x0101 0x10 [] = true ∧
    gives (.bclr 4) (start 0xFF []) 0x0101 0xEF [] = true ∧
    gives (.bst 3 0) (start 0xFF [(3, 0xFE)]) 0x0101 0xBF [] = true ∧
    gives (.bld 4 2) (start 0xBF [(4, 0xFF)]) 0x0101 0xBF [(4, 0xFB)] = true ∧
    gives (.set) (start 0x00 []) 0x0101 0x40 [] = true ∧
    gives (.clh) (start 0xFF []) 0x0101 0xDF [] = true := by decide

/-- Loads that reach registers and SREG through the data space (R223, R232, R252). -/
theorem test_load_register_space :
    gives (.ldXDec 5) (start 0x00 [(16, 0x5C), (26, 0x11)]) 0x0101 0x00 [(5, 0x5C), (26, 0x10)] = true ∧
    gives (.lds 16 0x005F) (start 0x95 []) 0x0102 0x95 [(16, 0x95)] = true ∧
    gives (.lds 16 0x001F) (start 0x00 [(31, 0x42)]) 0x0102 0x00 [(16, 0x42)] = true ∧
    gives (.inp 16 0x3E) (start 0x00 []) 0x0101 0x00 [(16, 0x10)] = true := by decide

/-- Loads of data memory: a pointer wraps over 2^16, a displacement is added (R222, R227). -/
theorem test_load_memory :
    gives (.ldXInc 5) { start 0 [(26, 0xFF), (27, 0xFF)] with ram := [(0xFFFF, 0x79)] } 0x0101 0x00
      [(5, 0x79), (26, 0x00), (27, 0x00)] = true ∧
    gives (.lddY 6 63) { start 0 [(28, 0x10), (29, 0x02)] with ram := [(0x024F, 0x14)] } 0x0101 0x00
      [(6, 0x14), (28, 0x10)] = true := by decide

/-- Stores: the pointer before or after, a register reached through the data space, SPH (R233 to R244). -/
theorem test_store :
    leaves (.stXInc 5) (start 0 [(5, 0xAB), (27, 0x02)]) 0x0101 0x10FF [(0x0200, 0xAB)] = true ∧
    leaves (.stXDec 5) (start 0 [(5, 0xAC)]) 0x0101 0x10FF [(0xFFFF, 0xAC)] = true ∧
    leaves (.stdZ 63 7) (start 0 [(7, 0xC3), (30, 0x20), (31, 0x02)]) 0x0101 0x10FF [(0x025F, 0xC3)] = true ∧
    gives (.stX 5) (start 0 [(5, 0xEE), (26, 0x03)]) 0x0101 0x00 [(3, 0xEE)] = true ∧
    leaves (.sts 0x005E 16) (start 0 [(16, 0x02)]) 0x0102 0x02FF [] = true := by decide

/-- PUSH and POP, in memory and where the stack wraps onto R0 (R254, R255). -/
theorem test_push_pop :
    leaves (.push 16) (start 0 [(16, 0xAA)]) 0x0101 0x10FE [(0x10FF, 0xAA)] = true ∧
    gives (.push 16) { start 0 [(16, 0xAA)] with sp := 0x0000 } 0x0101 0x00 [(0, 0xAA)] = true ∧
    gives (.pop 17) { start 0 [(0, 0x3C)] with sp := 0xFFFF } 0x0101 0x00 [(17, 0x3C)] = true := by decide

/-- Calls and returns (R166 to R170). -/
theorem test_call_return :
    leaves (.rcall 0x010) { start 0 [] with pc := 0x0123 } 0x0134 0x10FD [(0x10FE, 0x01), (0x10FF, 0x24)] = true ∧
    leaves .icall { start 0 [(31, 0x20)] with pc := 0x01FF } 0x2000 0x10FD [(0x10FE, 0x02), (0x10FF, 0x00)] = true ∧
    leaves (.call 0x0200) { start 0 [] with pc := 0xFFFE } 0x0200 0x10FD [(0x10FE, 0), (0x10FF, 0)] = true ∧
    gives .ret { start 0x80 [] with sp := 0x10FD, ram := [(0x10FE, 0x01), (0x10FF, 0x24)] } 0x0124 0x80 [] = true ∧
    gives .reti { start 0x1F [] with sp := 0x10FD, ram := [(0x10FE, 0xAB), (0x10FF, 0xCD)] } 0xABCD 0x9F [] = true := by
  decide

/-- The word at 0x0101 of program memory is `w`. -/
def nextWord (w : Word) (s : State) : State := placeBytes 0x0202 (bytesOfWord w) s

/-- Skips over one-word and two-word instructions, and over the bit of a device location (R171, R175 to R178). -/
theorem test_skip :
    gives (.cpse 0 1) (nextWord 0x0000 (start 0 [])) 0x0102 0x00 [] = true ∧
    gives (.cpse 0 1) (nextWord 0x9100 (start 0 [])) 0x0103 0x00 [] = true ∧
    gives (.sbrc 0 7) (nextWord 0x0000 (start 0 [(0, 0x80)])) 0x0101 0x00 [] = true ∧
    gives (.sbrs 16 0) (nextWord 0x9200 (start 0 [(16, 0x01)])) 0x0103 0x00 [] = true ∧
    gives (.sbic 0x10 3) { nextWord 0xCFFF (start 0 []) with devIn := [0xF7] } 0x0102 0x00 [] = true ∧
    gives (.sbis 0x1F 7) { nextWord 0x940C (start 0 []) with devIn := [0x7F] } 0x0101 0x00 [] = true := by decide

/-- SBI reads the byte, then writes it back with the bit set (R267). -/
theorem test_sbi :
    (match exec (.sbi 0x18 3) { start 0xFF [] with devIn := [0x01] } with
      | .next t => t.trace
      | _ => []) = [.devWrite 0x38 0x09, .devRead 0x38 0x01] := by decide

/-- LPM takes the high byte at an odd address; ELPM carries into RAMPZ (R245, R250). -/
theorem test_program_loads :
    gives .lpmR0 { start 0 [(30, 0x01), (31, 0x04)] with flash := [(0x400, 0xCD), (0x401, 0xAB)] } 0x0101 0x00
      [(0, 0xAB)] = true ∧
    gives (.elpmInc 17) { start 0 [(30, 0xFF), (31, 0xFF)] with flash := [(0xFFFF, 0x56)] } 0x0101 0x00
      [(17, 0x56), (30, 0x00), (31, 0x00)] = true ∧
    (match exec (.elpmInc 17) (start 0 [(30, 0xFF), (31, 0xFF)]) with
      | .next t => t.rampz
      | _ => 0) = 0x01 := by decide

/-- OUT to RAMPZ keeps the one bit that exists; SLEEP sleeps when enabled; SEI sets the latch (R37, R211, R285). -/
theorem test_control :
    (match exec (.out 0x3B 16) (start 0 [(16, 0xFF)]) with | .next t => t.rampz | _ => 0) = 0x01 ∧
    (match exec .sleep { start 0x80 [] with pins := ⟨false, [], true⟩ } with
      | .next t => t.asleep
      | _ => false) = true ∧
    (match exec .sei (start 0 []) with | .next t => t.inhibit | _ => false) = true := by decide

/-- The table's bits of `LDI R16, 5` decode, and step runs it. -/
theorem test_fetch :
    decodeTableWord 16 0xE005 = some (.ldi 16 5) ∧
    (match step (State.reset.withFetchWord 16 0xE005) with | .next t => t.reg 16 | _ => 0) = 5 := by decide

/-- An interrupt request is taken with I set: the lowest vector, the return address stacked (section 2.6, vector 2). -/
theorem test_interrupt :
    (match step { start 0xA3 [] with pc := 0x0123, pins := ⟨false, [3, 1], false⟩ } with
      | .next t => (t.pc, t.sreg, t.sp, t.ram, t.trace)
      | _ => (0, 0, 0, [], [])) =
      (0x0002, 0x23, 0x10FD, [(0x10FE, 0x01), (0x10FF, 0x23)], [.irqAck 1]) := by decide

/-! ### Witnesses: states and operands that meet each statement's hypotheses -/

/-- A device without external memory and with half of the program memory. -/
def small : State := { State.reset with par := { defaultParams with extMemEnd := 0, flashWords := 0x8000 } }

/-- DecodeOfEncode. -/
theorem witness_wellFormed : wellFormed (.adiw 24 63) = true ∧ wellFormed (.lsl 31) = true := by decide

/-- EncodeOfDecode. -/
theorem witness_decodes : decode [0x940E, 0x0200, 0x0000] = .ok (.call 0x0200, [0x0000]) := by decide

/-- FirstWordTellsLength. -/
theorem witness_two_words : wellFormed (.sts 0x0300 16) = true ∧ encode (.sts 0x0300 16) = [0x9300, 0x0300] := by decide

/-- ReservedWordRefused: program memory is erased at pc. -/
theorem witness_reserved : State.reset.RunsInstruction ∧ State.reset.progWord State.reset.pc = some 0xFFFF ∧
    ∀ r ∈ opcodeTable, r.selects 0xFFFF = false := by
  unfold State.RunsInstruction; decide

/-- StepRunsDecodedInstruction: with I off, with nothing pending, and with the latch on. -/
theorem witness_runs :
    (State.reset.withFetchWord 16 0xE005).RunsInstruction ∧
    decode (fetchWords (State.reset.withFetchWord 16 0xE005)) = .ok (.ldi 16 5, [0x0000]) ∧
    (start 0x80 []).RunsInstruction ∧
    { start 0x80 [] with inhibit := true, pins := ⟨false, [1], false⟩ }.RunsInstruction := by
  unfold State.RunsInstruction; decide

/-- A stack at the top of SRAM, or at its first two bytes, and one with SP at SREG's address or just above. -/
theorem witness_stack_bytes :
    (StackByte (start 0 []) 0x10FF ∧ StackByte (start 0 []) 0x10FE) ∧
    (StackByte (start 0 []) 0x0100 ∧ StackByte (start 0 []) 0x0101) ∧
    (StackByte (start 0 []) 0x005F ∧ StackByte (start 0 []) 0x0060) := by
  unfold StackByte; decide

/-- InterruptEntry, awake: the highest vector requests alone; asleep: vector 1 with another, the latch on. -/
theorem witness_interrupt :
    (∃ s : State, s.sample.pins.reset = false ∧ s.flag flagI = true ∧ s.inhibit = false ∧ 34 ∈ s.sample.pins.irq ∧
      34 < s.par.nVectors ∧ (∀ m ∈ s.sample.pins.irq, 34 ≤ m) ∧ StackByte s s.sp ∧ StackByte s (s.sp - 1) ∧
      s.sp ≠ 0x5F ∧ s.sp - 1 ≠ 0x5F) ∧
    (∃ s : State, s.sample.pins.reset = false ∧ s.flag flagI = true ∧ s.asleep = true ∧ s.inhibit = true ∧
      1 ∈ s.sample.pins.irq ∧ 1 < s.par.nVectors ∧ (∀ m ∈ s.sample.pins.irq, 1 ≤ m → 1 ≤ m) ∧
      StackByte s s.sp ∧ StackByte s (s.sp - 1)) :=
  ⟨⟨{ start 0x80 [] with pins := ⟨false, [34], false⟩ }, by unfold StackByte; decide⟩,
    ⟨{ start 0x80 [] with inputs := [⟨false, [3, 1], false⟩], asleep := true, inhibit := true },
      by unfold StackByte; decide⟩⟩

/-- A state with vector 1 requesting, the first word `w` at pc, the second `w'` after it. -/
def requesting (sreg : Byte) (w : Nat) (w' : Word) : State :=
  nextWord w' (State.withFetchWord { start sreg [] with pins := ⟨false, [1], false⟩ } 16 w)

/-- SeiHoldsOffOneInstruction: an INC after SEI. -/
theorem witness_sei :
    let s := requesting 0 0x9478 0x9503;
    ∃ t u : State, s.inputs = [] ∧ s.RunsInstruction ∧ s.pending = some 1 ∧
      (∃ rest, decode (fetchWords s) = .ok (.bset flagI, rest)) ∧ s.flag flagI = false ∧
      exec (.bset flagI) (s.setInhibit false) = .next t ∧
      (∃ rest, decode (fetchWords t) = .ok (.inc 16, rest)) ∧
      exec (.inc 16) (t.setInhibit false) = .next u ∧ u.flag flagI = true ∧
      StackByte u u.sp ∧ StackByte u (u.sp - 1) :=
  ⟨_, _, by decide, by unfold State.RunsInstruction; decide, by decide, ⟨[0x9503], by decide⟩, by decide, rfl,
    ⟨[0xFFFF], by decide⟩, rfl, by decide, by unfold StackByte; decide, by unfold StackByte; decide⟩

/-- SeiHoldsOffOneInstruction: a SLEEP that sleeps after RETI, which returns to it. -/
theorem witness_reti_holds :
    let s : State := { requesting 0 0x9518 0x9588 with
      sp := 0x0100, ram := [(0x0101, 0x01), (0x0102, 0x01)], pins := ⟨false, [1], true⟩ };
    ∃ t u : State, s.inputs = [] ∧ s.RunsInstruction ∧ s.pending = some 1 ∧
      exec .reti (s.setInhibit false) = .next t ∧ t.progWord t.pc = some 0x9588 ∧
      exec .sleep (t.setInhibit false) = .next u ∧ u.flag flagI = true ∧ u.asleep = true ∧
      StackByte u u.sp ∧ StackByte u (u.sp - 1) :=
  ⟨_, _, by decide, by unfold State.RunsInstruction; decide, by decide, rfl, by decide, rfl, by decide, by decide,
    by unfold StackByte; decide, by unfold StackByte; decide⟩

/-- ResetEvent. -/
theorem witness_lines :
    (State.sample { start 0 [] with inputs := [⟨true, [], false⟩] }).pins.reset = true := by decide

/-- AsleepWaits: with I off and a request, and with I on and only vectors that do not exist. -/
theorem witness_asleep :
    (let s : State := { start 0 [] with asleep := true, pins := ⟨false, [1], false⟩ };
      s.sample.pins.reset = false ∧ s.asleep = true ∧ s.flag flagI = false) ∧
    (let s : State := { start 0x80 [] with asleep := true, pins := ⟨false, [0, 35], false⟩ };
      s.sample.pins.reset = false ∧ s.asleep = true ∧ s.sample.pending = none) := by decide

/-- StepKeepsInvariant and ProgramMemoryConstant: an instruction that stores. -/
theorem witness_invariant_step :
    ∃ s t : State, s.Inv ∧ step s = .next t ∧ t.ram = [(0x10FF, 0x00)] :=
  ⟨State.withFetchWord (start 0 []) 16 0x930F, _,
    { ramWf := by decide, flashWf := by decide, ramMapped := fun c hc => (by cases hc), rampzBits := by decide,
      inhibitNeedsI := by decide, asleepNotInhibited := by decide }, rfl, by decide⟩

/-- EndOfRunFixedPoint. -/
theorem witness_end_of_run :
    let s := State.reset.withFetchWord 16 0xCFFF;
    s.inputs = [] ∧ s.pins.reset = false ∧ s.asleep = false ∧ s.flag flagI = false ∧
      s.progWord s.pc = some 0xCFFF := by decide

/-- FetchOutsideProgramStuck: pc at FLASH_WORDS; a CALL at FLASH_WORDS - 1; a skip there, taken and not. -/
theorem witness_fetch_outside :
    (let s : State := { small with pc := 0x8000 };
      s.RunsInstruction ∧ s.par.flashWords ≤ s.pc.toNat) ∧
    (let s : State := State.withFetchWord { small with pc := 0x7FFF } 16 0x940E;
      s.RunsInstruction ∧ s.progWord s.pc = some 0x940E ∧ isTwoWord 0x940E = true ∧
        s.par.flashWords ≤ (s.pc + 1).toNat) ∧
    (let s : State := { small with pc := 0x7FFF, devIn := [0x10] };
      s.par.flashWords ≤ (s.pc + 1).toNat ∧ bitOf (deviceAnswer (ioBitAddr 3) s) 4 = true ∧
        bitOf (deviceAnswer (ioBitAddr 3) s) 5 = false) := by
  unfold State.RunsInstruction; decide

/-- RowCellsHold (a row that neither stores nor transfers, one that stores and moves its pointer, one that stores and
transfers) and SignIsNXorV. -/
theorem witness_row_cells :
    (∃ t, exec (.add 0 31) (start 0 []) = .next t) ∧ (rowCells (.add 0 31)).stores (start 0 []) = [] ∧
    (rowCells (.add 0 31)).transfers = false ∧ flagV ∈ (rowCells (.add 0 31)).flags ∧
    flagN ∈ (rowCells (.add 0 31)).flags ∧
    (∃ t, exec (.stXDec 0) (start 0 [(27, 0x02)]) = .next t) ∧
    (rowCells (.stXDec 0)).stores (start 0 [(27, 0x02)]) = [0x01FF] ∧
    (∃ t, exec .icall (start 0 []) = .next t) ∧ (rowCells .icall).stores (start 0 []) = [0x10FF, 0x10FE] :=
  ⟨⟨_, rfl⟩, by decide, by decide, by decide, by decide, ⟨_, rfl⟩, by decide, ⟨_, rfl⟩, by decide⟩

/-- WordAddSubtract and RegisterMoves: the lowest and the highest pair. -/
theorem witness_pairs : isPairLow 24 = true ∧ isPairLow 30 = true ∧ isEven 0 = true ∧ isEven 30 = true := by decide

/-- FractionalZeroMeansZero. -/
theorem witness_fractional_zero :
    ∃ t, exec (.fmulsu 16 23) (start 0 [(16, 0x80)]) = .next t ∧ t.flag flagZ = true := ⟨_, rfl, by decide⟩

/-- ReturnsPopAddress: RETI with both bytes above SREG. -/
theorem witness_returns :
    let s : State := { start 0 [] with sp := 0x005F };
    StackByte s (s.sp + 1) ∧ StackByte s (s.sp + 2) ∧ s.sp + 1 ≠ 0x5F ∧ s.sp + 2 ≠ 0x5F := by
  unfold StackByte; decide

/-- CallThenReturn: the two bytes are the lowest of SRAM. -/
theorem witness_call_then_return :
    let s : State := { start 0 [] with sp := 0x0101 };
    region s.par s.sp = .memory ∧ region s.par (s.sp - 1) = .memory ∧
      (∃ t, exec (.rcall 0x7FF) s = .next t) ∧ (∃ t, exec .icall s = .next t) ∧ ∃ t, exec (.call 0) s = .next t :=
  ⟨by decide, by decide, ⟨_, rfl⟩, ⟨_, rfl⟩, ⟨_, rfl⟩⟩

/-- RegisterSkips and IoSkips: a one-word and a two-word instruction follow. -/
theorem witness_skips :
    (nextWord 0x0000 (start 0 [])).progWord ((nextWord 0x0000 (start 0 [])).pc + 1) = some 0x0000 ∧
    (nextWord 0x940E (start 0 [])).progWord ((nextWord 0x940E (start 0 [])).pc + 1) = some 0x940E := by decide

/-- The addresses of the load and store statements: every kind of region is mapped, and its ends are. -/
theorem witness_mapped :
    [0x0000, 0x001F, 0x0020, 0x005B, 0x005D, 0x005E, 0x005F, 0x0060, 0x00FF, 0x0100, 0x10FF, 0x1100, 0xFFFF].all
      (fun a : Word => region (start 0 []).par a != .unmapped) = true ∧
    region (start 0 []).par 0x0100 = .memory ∧ region (start 0 []).par 0x10FF = .memory := by decide

/-- LoadsUpdatingPointer and StoresUpdatingPointer: the address next to the pointer's own registers. -/
theorem witness_updating :
    let s := start 0 [(26, 28)];
    region s.par (s.ptr .x) ≠ .unmapped ∧ (25 : Reg) ≠ Ptr.x.lo ∧ (25 : Reg) ≠ Ptr.x.hi ∧
      (s.ptr .x).toNat ≠ Ptr.x.lo.val ∧ (s.ptr .x).toNat ≠ Ptr.x.hi.val := by decide

/-- OwnPointerStaysOpen: the destination a half; the address the low half, and the high half, with another register. -/
theorem witness_own_pointer :
    (let s := start 0 [(27, 0x02)];
      region s.par (s.ptr .x) ≠ .unmapped ∧ (s.ptr .x).toNat ≠ Ptr.x.lo.val ∧ (s.ptr .x).toNat ≠ Ptr.x.hi.val ∧
        (26 : Reg) = Ptr.x.lo) ∧
    (let s := start 0 [(26, 26)];
      region s.par (s.ptr .x) ≠ .unmapped ∧ (s.ptr .x).toNat = Ptr.x.lo.val ∧ (25 : Reg) ≠ Ptr.x.lo) ∧
    (let s := start 0 [(26, 27)];
      region s.par (s.ptr .x) ≠ .unmapped ∧ (s.ptr .x).toNat = Ptr.x.hi.val ∧ (28 : Reg) ≠ Ptr.x.hi) := by decide

/-- UnmappedDataStuck: just above RAMEND, and the last address, on a device without external memory; a call, a return
and an interrupt whose first stack byte has a place and whose second has none; an interrupt whose first has none. -/
theorem witness_unmapped :
    (region small.par 0x1100 = .unmapped ∧ region small.par 0xFFFF = .unmapped) ∧
    (let s : State := { small with sp := 0x0000 };
      region s.par s.sp ≠ .unmapped ∧ region s.par (s.sp - 1) = .unmapped) ∧
    (let s : State := { small with sp := 0x10FE };
      region s.par (s.sp + 1) ≠ .unmapped ∧ region s.par (s.sp + 2) = .unmapped) ∧
    (let s : State := { small with sp := 0x1100, sreg := 0x80, pins := ⟨false, [1], false⟩ };
      s.sample.pins.reset = false ∧ s.flag flagI = true ∧ s.inhibit = false ∧ s.sample.pending ≠ none ∧
        region s.par s.sp = .unmapped) ∧
    (let s : State := { small with sp := 0x0000, sreg := 0x80, asleep := true, pins := ⟨false, [1], false⟩ };
      s.sample.pins.reset = false ∧ s.flag flagI = true ∧ s.asleep = true ∧ s.sample.pending ≠ none ∧
        region s.par s.sp ≠ .unmapped ∧ region s.par (s.sp - 1) = .unmapped) := by decide

/-- ProgramByteLoads: the last byte of a small device, and the first byte beyond it. -/
theorem witness_program_byte :
    (let s := { small with flash := [(0xFFFE, 0xCD), (0xFFFF, 0xAB)] }.setPtr .z 0xFFFF;
      s.progWord (BitVec.ofNat 16 ((s.ptr .z).toNat / 2)) = some 0xABCD ∧ (s.ptr .z).toNat / 2 < 65536) ∧
    (let s := { small with rampz := 1 };
      s.par.flashWords ≤ ((s.rampz &&& rampzMask s.par).toNat * 65536 + (s.ptr .z).toNat) / 2) := by decide

/-- ProgramLoadsIncrement: the first byte beyond a device of half the size, by LPM on a smaller one and by ELPM. -/
theorem witness_program_outside :
    (let s : State := { small with par := { small.par with flashWords := 0x4000 } }.setPtr .z 0x8000;
      s.par.flashWords ≤ (s.ptr .z).toNat / 2) ∧
    (let s : State := { small with rampz := 1 };
      s.par.flashWords ≤ ((s.rampz &&& rampzMask s.par).toNat * 65536 + (s.ptr .z).toNat) / 2) := by decide

/-- ProgramLoadsIncrement: the byte at which the address wraps. -/
theorem witness_program_increment :
    let s := ({ start 0 [] with rampz := 1 }).setPtr .z 0xFFFF;
    s.progByte (s.ptr .z).toNat = some 0xFF ∧ s.par.rampzBits ≤ 8 ∧ s.rampz &&& rampzMask s.par = s.rampz ∧
      s.progByte (s.rampz.toNat * 65536 + (s.ptr .z).toNat) = some 0xFF := by decide

/-- StackOnSpStaysOpen: SP on and next to SPL, SPH and SREG, with 0x60 mapped. -/
theorem witness_stack_open :
    ({ start 0 [] with sp := 0x5D } : State).sp = 0x5D ∧ ({ start 0 [] with sp := 0x5C } : State).sp + 1 = 0x5D ∧
    ({ start 0 [] with sp := 0x5F } : State).sp = 0x5F ∧ ({ start 0 [] with sp := 0x5B } : State).sp = 0x5B ∧
    ({ start 0 [] with sp := 0x60 } : State).sp = 0x60 ∧ region (start 0 []).par 0x60 ≠ .unmapped := by decide

/-- IoBitsReadModifyWrite and StatusBranches: the operands at the ends of their ranges. -/
theorem witness_listed :
    (Instr.cbi 31 7, false) ∈ [(Instr.sbi 31 7, true), (.cbi 31 7, false)] ∧
    (Instr.brbc 7 (-64), (7 : BitNo), false) ∈
      [(Instr.brbs 7 (-64), (7 : BitNo), true), (.brbc 7 (-64), 7, false)] := by decide

/-- NineRotatesRestore. -/
theorem witness_rotates : ∃ t, Repeats (.rol 16) 9 (start 0x01 [(16, 0x5A)]) t :=
  ⟨_, _, rfl, _, rfl, _, rfl, _, rfl, _, rfl, _, rfl, _, rfl, _, rfl, _, rfl, rfl⟩

/-- TurningInterruptsOn with I clear and with I set; CoreRegistersThroughIo's clause about the latch. -/
theorem witness_interrupt_flag :
    (start 0 []).flag flagI = false ∧ (start 0x80 []).flag flagI = true ∧
    bitOf ((start 0 [(16, 0x7F)]).reg 16) flagI = false := by decide

/-- FlagSetClear: SEI's bit may only be cleared there, any other bit set or cleared. -/
theorem witness_flag_set_clear : (flagI = flagI → false = false) ∧ (flagC = flagI → true = false) := by decide

end Sys2Proof.Tests
end

section
/-! PROOF. What an instruction may change (spec/95_test_vectors.md section 1.2). Every instruction is a chain of updates
inside the cells of its row, which leaves pc alone (`Within`), and then one move of pc (`Completes`). Each update of the
state keeps the chain inside the cells, each shared operation completes so, and each row is one of them. -/

namespace Sys2Proof.Proofs.Scope

open Sys2Proof.Machine Sys2Proof.Laws

/-- From `s` to `t` nothing but the cells of `c` was written: pc was not, and the fields that a row does not speak of
(SP, RAMPZ, the latch, the sleep bit, the model's bookkeeping) may be anything. -/
structure Within (c : RowCells) (s t : State) : Prop where
  regs : ∀ r : Reg, r ∉ c.dests → (∀ a ∈ c.stores s, a.toNat ≠ r.val) → t.reg r = s.reg r
  flags : ∀ n : BitNo, n ∉ c.flags → 0x5F ∉ c.stores s → t.flag n = s.flag n
  memory : ∀ b : Nat, (∀ a ∈ c.stores s, a.toNat ≠ b) → t.ramByte b = s.ramByte b
  pc : t.pc = s.pc
  flash : ∀ a, t.flashByte a = s.flashByte a
  par : t.par = s.par
  pins : t.pins = s.pins
  inputs : t.inputs = s.inputs
  resets : t.resets = s.resets

/-- From `s` to `t` an instruction of `len` words wrote within the cells of `c`, and then moved pc: by its length, unless
its row's action writes pc. -/
def Completes (c : RowCells) (len : Nat) (s t : State) : Prop :=
  ∃ u w cyc, Within c s u ∧ t = u.jump w cyc ∧ (c.transfers = false → w = s.pc + BitVec.ofNat 16 len)

section
variable {c : RowCells} {s t u : State}

/-! ### Updates of the state -/

theorem Within.refl : Within c s s := by constructor <;> intros <;> rfl

/-- The fields that no row speaks of. -/
theorem Within.other (h : Within c s t) (sp : Word) (rampz : Byte) (inhibit asleep : Bool) (devIn : List Byte)
    (trace : List Event) (freeCount : Nat) :
    Within c s { t with
      sp := sp, rampz := rampz, inhibit := inhibit, asleep := asleep, devIn := devIn, trace := trace
      freeCount := freeCount } := { h with }

theorem Within.setReg {d : Reg} {v : Byte} (h : Within c s t) (hd : d ∈ c.dests) : Within c s (t.setReg d v) :=
  { h with
    regs := fun r hr ha => by
      have hrd : r ≠ d := fun e => hr (e ▸ hd)
      rw [reg_setReg_ne _ _ _ _ hrd, h.regs r hr ha] }

theorem Within.setPair {d : Reg} {w : Word} (h : Within c s t) (hl : d ∈ c.dests) (hh : d + 1 ∈ c.dests) :
    Within c s (t.setPair d w) := (h.setReg hl).setReg hh

theorem Within.setPtr {p : Ptr} {w : Word} (h : Within c s t) (hl : p.lo ∈ c.dests) (hh : p.hi ∈ c.dests) :
    Within c s (t.setPtr p w) := (h.setReg hl).setReg hh

theorem Within.freePtr {p : Ptr} (h : Within c s t) (hl : p.lo ∈ c.dests) (hh : p.hi ∈ c.dests) :
    Within c s (t.freePtr p) := (h.setPtr hl hh).other ..

theorem Within.setSreg {v : Byte} (h : Within c s t) (hv : ∀ n, n ∉ c.flags → bitOf v n = bitOf t.sreg n) :
    Within c s (t.setSreg v) :=
  { h with flags := fun n hn ha => (hv n hn).trans (h.flags n hn ha) }

theorem Within.putFlag {n : BitNo} {b : Bool} (h : Within c s t) (hn : n ∈ c.flags) :
    Within c s (t.setSreg (putBit t.sreg n b)) :=
  h.setSreg fun m hm => by
    have hmn : m ≠ n := fun e => hm (e ▸ hn)
    rw [bitOf_putBit, if_neg hmn]

theorem Within.enableInterrupts (h : Within c s t) (hI : flagI ∈ c.flags) : Within c s (enableInterrupts t) := by
  unfold Machine.enableInterrupts
  split
  · exact h.other ..
  · exact (h.putFlag hI).other ..

theorem Within.setSregBit {n : BitNo} (h : Within c s t) (hn : n ∈ c.flags) : Within c s (setSregBit n t) := by
  unfold Machine.setSregBit
  split
  · next e => exact h.enableInterrupts (e ▸ hn)
  · exact h.putFlag hn

/-! ### The data space and the stack -/

theorem Within.loads {a : Word} {v : Byte} (h : Within c s t) (hl : Loads a t v u) : Within c s u := by
  rw [Loads_state hl]
  exact h.other ..

/-- A store reaches a register, SREG or a byte of memory only where it is addressed. -/
theorem Within.stores {a : Word} {v : Byte} (h : Within c s t) (hs : Stores a v t u) (ha : a ∈ c.stores s) :
    Within c s u := by
  obtain ⟨hpins, hinputs, -⟩ := hs.lines
  obtain ⟨hresets, -⟩ := hs.counters
  exact {
    regs := fun r hr hne => by rw [hs.regs, if_neg (hne a ha), h.regs r hr hne]
    flags := fun n hn hne => by
      have hna : a ≠ 0x5F := fun e => hne (e ▸ ha)
      rw [State.flag, hs.sreg, if_neg hna]
      exact h.flags n hn hne
    memory := fun b hne => by
      have hab : a.toNat ≠ b := hne a ha
      rw [hs.memory, if_neg fun e => hab e.2.symm, h.memory b hne]
    pc := hs.pc.trans h.pc
    flash := fun b => (hs.flash b).trans (h.flash b)
    par := hs.par.trans h.par
    pins := hpins.trans h.pins
    inputs := hinputs.trans h.inputs
    resets := hresets.trans h.resets }

theorem Within.settleSp {b : Bool} {w : Word} (h : Within c s t) : Within c s (settleSp b w t) := by
  unfold Machine.settleSp
  split
  · exact h.other ..
  · exact h.other ..

theorem pushPc_within {v : Word} (h : pushPc v s = .ok t) (hl : s.sp ∈ c.stores s) (hh : s.sp - 1 ∈ c.stores s) :
    Within c s t := by
  obtain ⟨u, w, hu, hw, rfl⟩ := pushPc_next h
  exact ((Within.refl.stores hu hl).stores hw hh).settleSp

theorem popPc_within {b : Bool} {w : Word} (h : popPc b s = .ok (w, t)) : Within c s t := by
  obtain ⟨_, _, _, rfl⟩ := popPc_next h
  exact Within.refl.other ..

/-! ### The move of pc -/

variable {len cyc : Nat}

theorem Within.advance (h : Within c s u) : Completes c len s (u.advance len cyc) :=
  ⟨u, _, cyc, h, rfl, fun _ => by rw [h.pc]⟩

theorem Within.jump {w : Word} (h : Within c s u) (hc : c.transfers = true) : Completes c len s (u.jump w cyc) :=
  ⟨u, w, cyc, h, rfl, fun hf => absurd (hc.symm.trans hf) (by decide)⟩

theorem Within.next_advance (h : Within c s u) (ht : (.next (u.advance len cyc) : Result) = .next t) :
    Completes c len s t := by
  cases ht
  exact h.advance

end

/-! ### The shared operations -/

section
variable {d r : Reg} {v sreg : Byte} {a w : Word} {p : Ptr} {ns : List BitNo} {st : State → List Word}
  {len cyc : Nat} {s t : State}

theorem writeResult_completes (h : writeResult cyc d v sreg s = .next t)
    (hf : ∀ n, n ∉ ns → bitOf sreg n = bitOf s.sreg n) : Completes ⟨[d], ns, atNone, false⟩ 1 s t :=
  ((Within.refl.setReg (.head _)).setSreg hf).next_advance h

theorem writePair_completes (h : writePair d w sreg s = .next t)
    (hf : ∀ n, n ∉ ns → bitOf sreg n = bitOf s.sreg n) : Completes ⟨[d, d + 1], ns, atNone, false⟩ 1 s t :=
  ((Within.refl.setPair (.head _) (.tail _ (.head _))).setSreg hf).next_advance h

theorem writeFlags_completes (h : writeFlags sreg s = .next t)
    (hf : ∀ n, n ∉ ns → bitOf sreg n = bitOf s.sreg n) : Completes ⟨[], ns, atNone, false⟩ 1 s t :=
  (Within.refl.setSreg hf).next_advance h

/-- A shift writes as the other one-cycle operations on a register do. -/
theorem writeShift_completes (h : writeShift d v sreg s = .next t)
    (hf : ∀ n, n ∉ ns → bitOf sreg n = bitOf s.sreg n) : Completes ⟨[d], ns, atNone, false⟩ 1 s t :=
  writeResult_completes h hf

theorem loadPlain_completes (h : loadPlain len cyc d a s = .next t) :
    Completes ⟨[d], [], atNone, false⟩ len s t := by
  obtain ⟨v, u, hl, rfl⟩ := loadPlain_next h
  exact ((Within.refl.loads hl).setReg (.head _)).advance

theorem loadUpdate_completes (h : loadUpdate p d a w s = .next t) :
    Completes ⟨[d, p.lo, p.hi], [], atNone, false⟩ 1 s t := by
  obtain ⟨v, u, hl, rfl⟩ := loadUpdate_next h
  have hu : Within ⟨[d, p.lo, p.hi], [], atNone, false⟩ s u := Within.refl.loads hl
  have hlo : p.lo ∈ [d, p.lo, p.hi] := .tail _ (.head _)
  have hhi : p.hi ∈ [d, p.lo, p.hi] := .tail _ (.tail _ (.head _))
  refine Within.advance ?_
  unfold loadedInto
  split
  · exact hu.freePtr hlo hhi
  · split
    · exact ((hu.setReg (.head _)).setPtr hlo hhi).other ..
    · exact (hu.setReg (.head _)).setPtr hlo hhi

theorem storePlain_completes (h : storePlain len cyc r a s = .next t) (ha : a ∈ st s) :
    Completes ⟨[], [], st, false⟩ len s t := by
  obtain ⟨u, hs, rfl⟩ := storePlain_next h
  exact (Within.refl.stores hs ha).advance

theorem storeUpdate_completes (h : storeUpdate p r a w s = .next t) (ha : a ∈ st s) :
    Completes ⟨[p.lo, p.hi], [], st, false⟩ 1 s t := by
  obtain ⟨u, hs, rfl⟩ := storeUpdate_next h
  have hb : Within ⟨[p.lo, p.hi], [], st, false⟩ s (storedByte p r s).2 := by
    unfold storedByte
    split
    · exact Within.refl.other ..
    · exact Within.refl
  have hu := hb.stores hs ha
  have hlo : p.lo ∈ [p.lo, p.hi] := .head _
  have hhi : p.hi ∈ [p.lo, p.hi] := .tail _ (.head _)
  refine Within.advance ?_
  unfold storedPtr
  split
  · exact (hu.setPtr hlo hhi).other ..
  · split
    · exact (hu.setPtr hlo hhi).other ..
    · exact hu.setPtr hlo hhi

theorem loadProg_completes {a : Nat} (h : loadProg d a s = .next t) :
    Completes ⟨[d], [], atNone, false⟩ 1 s t := by
  unfold loadProg at h
  split at h
  · cases h
  · exact (Within.refl.setReg (.head _)).next_advance h

/-- LPM and ELPM with Z updated leave their byte and the new Z, or free values, in their row's registers. -/
theorem progLoadedInto_within :
    Within ⟨[d, 30, 31], [], atNone, false⟩ s (progLoadedInto d v w s) := by
  have hlo : Ptr.z.lo ∈ [d, 30, 31] := .tail _ (.head _)
  have hhi : Ptr.z.hi ∈ [d, 30, 31] := .tail _ (.tail _ (.head _))
  unfold progLoadedInto
  split
  · exact Within.refl.freePtr hlo hhi
  · exact (Within.refl.setReg (.head _)).setPtr hlo hhi

theorem lpmIncrement_completes (h : lpmIncrement d s = .next t) :
    Completes ⟨[d, 30, 31], [], atNone, false⟩ 1 s t := by
  unfold lpmIncrement at h
  split at h
  · cases h
  · exact progLoadedInto_within.next_advance h

theorem elpmIncrement_completes (h : elpmIncrement d s = .next t) :
    Completes ⟨[d, 30, 31], [], atNone, false⟩ 1 s t := by
  unfold elpmIncrement at h
  split at h
  · cases h
  · cases h
    exact (progLoadedInto_within.other ..).advance

theorem execPush_completes (h : execPush r s = .next t) :
    Completes ⟨[], [], fun s => [s.sp], false⟩ 1 s t := by
  rw [execPush, settle_eq_next] at h
  cases hu : push8 (s.reg r) s with
  | error f => rw [hu] at h; cases h
  | ok u =>
    rw [hu] at h
    cases h
    obtain ⟨w, hs, rfl⟩ := push8_next hu
    exact (Within.refl.stores hs (.head _)).settleSp.advance

theorem execPop_completes (h : execPop d s = .next t) : Completes ⟨[d], [], atNone, false⟩ 1 s t := by
  unfold execPop at h
  split at h
  · cases h
  · next hu =>
    cases h
    obtain ⟨_, _, _, rfl⟩ := pop8_next hu
    exact ((Within.refl.other ..).setReg (.head _)).advance

theorem changeIoBit_completes {b : BitNo} {on : Bool} (h : changeIoBit a b on s = .next t) :
    Completes ⟨[], [], fun _ => [a], false⟩ 1 s t := by
  obtain ⟨v, u, w, hl, hs, rfl⟩ := changeIoBit_next h
  exact ((Within.refl.loads hl).stores hs (.head _)).advance

/-! Operations that write pc: they complete whatever the length. -/

theorem skip_completes {b : Bool} (h : skip b s = .next t) : Completes ⟨[], [], atNone, true⟩ len s t := by
  obtain ⟨_, _, rfl⟩ := skip_next _ _ _ h
  exact Within.refl.jump rfl

theorem skipIo_completes {b : BitNo} {want : Bool} (h : skipIo a b want s = .next t) :
    Completes ⟨[], [], atNone, true⟩ len s t := by
  obtain ⟨_, _, _, _, hl, rfl⟩ := skipIo_next h
  exact (Within.refl.loads hl).jump rfl

theorem branchIf_completes {b : Bool} {k : BitVec 7} (h : branchIf b k s = .next t) :
    Completes ⟨[], [], atNone, true⟩ len s t := by
  cases h
  split
  · exact Within.refl.jump rfl
  · exact Within.refl.jump rfl

theorem callTo_completes {target : Word} (h : callTo w target cyc s = .next t) :
    Completes ⟨[], [], fun s => [s.sp, s.sp - 1], true⟩ len s t := by
  obtain ⟨u, hu, rfl⟩ := callTo_next h
  exact (pushPc_within hu (.head _) (.tail _ (.head _))).jump rfl

theorem execRet_completes (h : execRet s = .next t) : Completes ⟨[], [], atNone, true⟩ len s t := by
  unfold execRet at h
  split at h
  · cases h
  · next hu =>
    cases h
    exact (popPc_within hu).jump rfl

theorem returnFromInterrupt_completes (h : returnFromInterrupt s = .next t) :
    Completes ⟨[], [flagI], atNone, true⟩ len s t := by
  unfold returnFromInterrupt at h
  split at h
  · cases h
  · next hu =>
    cases h
    exact (((popPc_within hu).putFlag (.head _)).other ..).jump rfl

end

/-! ### The rows -/

/-- Every instruction that completes writes within its row's cells, then moves pc. -/
theorem exec_completes (i : Instr) (s t : State) (h : exec i s = .next t) :
    Completes (rowCells i) (encode i).length s t := by
  cases i with
  | add _ _ | adc _ _ => exact writeResult_completes h (addFlags_keep _ _ _ _)
  | sub _ _ | subi _ _ | sbc _ _ | sbci _ _ => exact writeResult_completes h (subFlags_keep _ _ _ _ _)
  | and _ _ | andi _ _ | or _ _ | ori _ _ | eor _ _ | sbr _ _ | cbr _ _ | tst _ | clr _ =>
    exact writeResult_completes h (logicFlags_keep _ _)
  | com _ => exact writeResult_completes h (comFlags_keep _ _)
  | neg _ => exact writeResult_completes h (negFlags_keep _ _ _)
  | inc _ => exact writeResult_completes h (incFlags_keep _ _)
  | dec _ => exact writeResult_completes h (decFlags_keep _ _)
  | ser _ => exact writeResult_completes h fun _ _ => rfl
  | adiw _ _ => exact writePair_completes h (adiwFlags_keep _ _ _)
  | sbiw _ _ => exact writePair_completes h (sbiwFlags_keep _ _ _)
  | mul _ _ | muls _ _ | mulsu _ _ | fmul _ _ | fmuls _ _ | fmulsu _ _ =>
    exact writePair_completes h (mulFlags_keep _ _ _)
  | cp _ _ | cpc _ _ | cpi _ _ => exact writeFlags_completes h (subFlags_keep _ _ _ _ _)
  | lsl _ | rol _ => exact writeShift_completes h (shiftLeftFlags_keep _ _ _ _)
  | lsr _ | ror _ | asr _ => exact writeShift_completes h (shiftRightFlags_keep _ _ _)
  | mov _ _ | ldi _ _ | swap _ | bld _ _ => exact (Within.refl.setReg (.head _)).next_advance h
  | movw _ _ => exact (Within.refl.setPair (.head _) (.tail _ (.head _))).next_advance h
  | bset _ | sec | sen | sez | ses | sev | set | seh => exact (Within.refl.setSregBit (.head _)).next_advance h
  | sei => exact (Within.refl.enableInterrupts (.head _)).next_advance h
  | bclr _ | clc | cln | clz | cli | cls | clv | clt | clh | bst _ _ =>
    exact (Within.refl.putFlag (.head _)).next_advance h
  | nop => exact Within.refl.next_advance h
  | sleep =>
    cases h
    split
    · exact (Within.refl.other ..).advance
    · exact Within.refl.advance
  | ldX _ | ldY _ | ldZ _ | lddY _ _ | lddZ _ _ | lds _ _ | inp _ _ => exact loadPlain_completes h
  | ldXInc _ | ldXDec _ | ldYInc _ | ldYDec _ | ldZInc _ | ldZDec _ => exact loadUpdate_completes h
  | stX _ | stY _ | stZ _ | stdY _ _ | stdZ _ _ | sts _ _ | out _ _ => exact storePlain_completes h (.head _)
  | stXInc _ | stXDec _ | stYInc _ | stYDec _ | stZInc _ | stZDec _ => exact storeUpdate_completes h (.head _)
  | lpmR0 | lpm _ | elpmR0 | elpm _ => exact loadProg_completes h
  | lpmInc _ => exact lpmIncrement_completes h
  | elpmInc _ => exact elpmIncrement_completes h
  | spm => cases h
  | push _ => exact execPush_completes h
  | pop _ => exact execPop_completes h
  | sbi _ _ | cbi _ _ => exact changeIoBit_completes h
  | rjmp _ | ijmp | jmp _ => cases h; exact Within.refl.jump rfl
  | rcall _ | icall | call _ => exact callTo_completes h
  | ret => exact execRet_completes h
  | reti => exact returnFromInterrupt_completes h
  | cpse _ _ | sbrc _ _ | sbrs _ _ => exact skip_completes h
  | sbic _ _ | sbis _ _ => exact skipIo_completes h
  | brbs _ _ | brbc _ _ | breq _ | brne _ | brcs _ | brcc _ | brsh _ | brlo _ | brmi _ | brpl _ | brge _ | brlt _
  | brhs _ | brhc _ | brts _ | brtc _ | brvs _ | brvc _ | brie _ | brid _ => exact branchIf_completes h

/-- Settles O17: what `exec_completes` says, field by field. -/
theorem rowCellsHold : Obligations.RowCellsHold := by
  intro i s t h
  obtain ⟨u, w, cyc, hu, rfl, hw⟩ := exec_completes i s t h
  exact ⟨hu.regs, hu.flags, hu.memory, hw, hu.flash, hu.par, hu.pins, hu.inputs, hu.resets⟩

end Sys2Proof.Proofs.Scope
end

section
/-! PROOF. What an instruction can do to data memory, RAMPZ, SREG, the latch and the sleep bit, said once (`Effect`):
the invariant and the hold-off after SEI follow from it without a second case split over the instructions. -/

namespace Sys2Proof.Proofs.Effects

open Sys2Proof.Machine Sys2Proof.Laws

/-- From `s` to `t` only registers, pc, SP, the platform's side and the model's counters may differ. -/
structure Calm (s t : State) : Prop where
  ram : t.ram = s.ram
  flash : t.flash = s.flash
  par : t.par = s.par
  rampz : t.rampz = s.rampz
  sreg : t.sreg = s.sreg
  inhibit : t.inhibit = s.inhibit
  asleep : t.asleep = s.asleep

/-- The ways in which the instruction `i` can take `s` to `t`, up to what `Calm` leaves open. -/
inductive Effect (i : Instr) (s t : State) : Prop
  /-- Flags at most. -/
  | flags (v : Byte) (ht : Calm (s.setSreg v) t)
  /-- RAMPZ, its implemented bits (`ELPM Rd, Z+`). -/
  | rampz (v : Byte) (hv : v &&& rampzMask s.par = v) (ht : Calm (s.setRampz v) t)
  /-- One byte stored in data space. -/
  | store (a : Word) (v : Byte) (s' u : State) (hs : Calm s s') (hu : storeByte a v s' = .ok u) (ht : Calm u t)
  /-- A return address pushed. -/
  | push (ret : Word) (u : State) (hu : pushPc ret s = .ok u) (ht : Calm u t)
  /-- I turned on, as SEI does. -/
  | enable (hi : i = .sei ∨ i = .bset flagI) (ht : Calm (enableInterrupts s) t)
  /-- I and the latch set by RETI. -/
  | reti (hi : i = .reti) (ht : Calm ((s.setSreg (putBit s.sreg flagI true)).setInhibit true) t)
  /-- The sleep bit. -/
  | sleep (ht : Calm (s.setAsleep true) t)

/-! ### Calm changes -/

section
variable {i : Instr} {s t u : State} {a w : Word} {v : Byte} {b : Bool}

theorem Calm.refl : Calm s s := ⟨rfl, rfl, rfl, rfl, rfl, rfl, rfl⟩

/-- The fields that `Calm` leaves open. -/
theorem Calm.other (h : Calm s t) (regs : Vector Byte 32) (pc sp : Word) (devIn : List Byte) (trace : List Event)
    (freeCount cycles : Nat) :
    Calm s { t with
      regs := regs, pc := pc, sp := sp, devIn := devIn, trace := trace, freeCount := freeCount, cycles := cycles } :=
  { h with }

theorem Calm.loads (h : Calm s t) (hl : Loads a t v u) : Calm s u := by
  rw [Loads_state hl]
  exact h.other ..

theorem Calm.settleSp (h : Calm s t) : Calm s (settleSp b w t) := by
  unfold Machine.settleSp
  split
  · exact h.other ..
  · exact h.other ..

theorem Calm.popPc (h : popPc b s = .ok (w, t)) : Calm s t := by
  obtain ⟨_, _, _, rfl⟩ := popPc_next h
  exact Calm.refl.other ..

theorem Calm.effect (h : Calm s t) : Effect i s t := .flags s.sreg { h with }

end

/-! ### The shared operations -/

section
variable {i : Instr} {d r : Reg} {a w : Word} {p : Ptr} {b : Bool} {len cyc : Nat} {s t : State}

theorem settle_map_next {e : Except Fault State} {f : State → State} (h : settle (e.map f) = .next t) :
    ∃ u, e = .ok u ∧ t = f u := by
  rw [settle_eq_next] at h
  cases e with
  | error x => cases h
  | ok u => cases h; exact ⟨u, rfl, rfl⟩

theorem loadPlain_effect (h : loadPlain len cyc d a s = .next t) : Effect i s t := by
  obtain ⟨v, u, hl, rfl⟩ := loadPlain_next h
  exact ((Calm.refl.loads hl).other ..).effect

theorem loadUpdate_effect (h : loadUpdate p d a w s = .next t) : Effect i s t := by
  obtain ⟨v, u, hl, rfl⟩ := loadUpdate_next h
  have hu : Calm s (loadedInto p d a w v u) := by
    unfold loadedInto
    split
    · exact (Calm.refl.loads hl).other ..
    · split
      · exact (Calm.refl.loads hl).other ..
      · exact (Calm.refl.loads hl).other ..
  exact (hu.other ..).effect

theorem loadProg_effect {a : Nat} (h : loadProg d a s = .next t) : Effect i s t := by
  unfold loadProg at h
  split at h
  · cases h
  · cases h
    exact (Calm.refl.other ..).effect

theorem Calm.progLoadedInto {v : Byte} : Calm s (progLoadedInto d v w s) := by
  unfold Machine.progLoadedInto
  split
  · exact Calm.refl.other ..
  · exact Calm.refl.other ..

theorem lpmIncrement_effect (h : lpmIncrement d s = .next t) : Effect i s t := by
  unfold lpmIncrement at h
  split at h
  · cases h
  · cases h
    exact (Calm.progLoadedInto.other ..).effect

/-- The bits that ELPM carries into RAMPZ are implemented ones. -/
theorem elpmNext_implemented (s : State) :
    BitVec.ofNat 8 (elpmNext s / 65536) &&& rampzMask s.par = BitVec.ofNat 8 (elpmNext s / 65536) := by
  have hlt : elpmNext s / 65536 < 2 ^ s.par.rampzBits := by
    rw [Nat.div_lt_iff_lt_mul (by decide), show 65536 = 2 ^ 16 from rfl, ← Nat.pow_add]
    exact Nat.mod_lt _ (Nat.two_pow_pos _)
  rw [rampzMask, ← BitVec.ofNat_and, Nat.and_two_pow_sub_one_eq_mod, Nat.mod_eq_of_lt hlt]

theorem elpmIncrement_effect (h : elpmIncrement d s = .next t) : Effect i s t := by
  unfold elpmIncrement at h
  split at h
  · cases h
  · next v hv =>
    cases h
    have hp : Calm s (progLoadedInto d v (BitVec.ofNat 16 (elpmNext s)) s) := Calm.progLoadedInto
    exact .rampz _ (elpmNext_implemented s) { hp with rampz := rfl }

theorem storePlain_effect (h : storePlain len cyc r a s = .next t) : Effect i s t := by
  obtain ⟨u, hu, rfl⟩ := settle_map_next h
  exact .store a _ s u Calm.refl hu (Calm.refl.other ..)

theorem storeUpdate_effect (h : storeUpdate p r a w s = .next t) : Effect i s t := by
  obtain ⟨u, hu, rfl⟩ := settle_map_next h
  have hs : Calm s (storedByte p r s).2 := by
    unfold storedByte
    split
    · exact Calm.refl.other ..
    · exact Calm.refl
  have ht : Calm u (storedPtr p a w u) := by
    unfold storedPtr
    split
    · exact Calm.refl.other ..
    · split
      · exact Calm.refl.other ..
      · exact Calm.refl.other ..
  exact .store a _ _ u hs hu (ht.other ..)

theorem changeIoBit_effect {n : BitNo} (h : changeIoBit a n b s = .next t) : Effect i s t := by
  unfold changeIoBit at h
  split at h
  · cases h
  · next v s' hs' =>
    obtain ⟨u, hu, rfl⟩ := settle_map_next h
    obtain ⟨-, hl⟩ := loadByte_inv _ _ _ _ hs'
    exact .store a _ s' u (Calm.refl.loads hl) hu (Calm.refl.other ..)

theorem execPush_effect (h : execPush r s = .next t) : Effect i s t := by
  obtain ⟨u, hu, rfl⟩ := settle_map_next h
  unfold push8 at hu
  split at hu
  · cases hu
  · next w hw =>
    cases hu
    exact .store _ _ s w Calm.refl hw (Calm.refl.settleSp.other ..)

theorem execPop_effect (h : execPop d s = .next t) : Effect i s t := by
  unfold execPop at h
  split at h
  · cases h
  · next hu =>
    cases h
    obtain ⟨_, _, _, rfl⟩ := pop8_next hu
    exact (Calm.refl.other ..).effect

theorem skip_effect (h : skip b s = .next t) : Effect i s t := by
  obtain ⟨_, _, rfl⟩ := skip_next _ _ _ h
  exact (Calm.refl.other ..).effect

theorem skipIo_effect {n : BitNo} (h : skipIo a n b s = .next t) : Effect i s t := by
  obtain ⟨_, _, _, _, hl, rfl⟩ := skipIo_next h
  exact ((Calm.refl.loads hl).other ..).effect

theorem branchIf_effect {k : BitVec 7} (h : branchIf b k s = .next t) : Effect i s t := by
  cases h
  split
  · exact (Calm.refl.other ..).effect
  · exact (Calm.refl.other ..).effect

theorem callTo_effect {target : Word} (h : callTo w target cyc s = .next t) : Effect i s t := by
  obtain ⟨u, hu, rfl⟩ := callTo_next h
  exact .push w u hu (Calm.refl.other ..)

theorem execRet_effect (h : execRet s = .next t) : Effect i s t := by
  unfold execRet at h
  split at h
  · cases h
  · next hu =>
    cases h
    exact ((Calm.popPc hu).other ..).effect

/-- RETI sets I and the latch, beside the pop of the return address. -/
theorem execReti_calm (h : execReti s = .next t) :
    Calm ((s.setSreg (putBit s.sreg flagI true)).setInhibit true) t := by
  unfold execReti returnFromInterrupt at h
  split at h
  · cases h
  · next u hu =>
    cases h
    have hc := Calm.popPc hu
    exact { hc with sreg := congrArg (putBit · flagI true) hc.sreg, inhibit := rfl }

theorem execSleep_effect (h : execSleep s = .next t) : Effect i s t := by
  cases h
  split
  · exact .sleep (Calm.refl.other ..)
  · exact (Calm.refl.other ..).effect

theorem execBset_effect {n : BitNo} (h : execBset n s = .next t) : Effect (.bset n) s t := by
  cases h
  unfold setSregBit
  split
  · next hn => exact .enable (.inr (hn ▸ rfl)) (Calm.refl.other ..)
  · exact .flags _ (Calm.refl.other ..)

end

/-! ### The instructions -/

/-- Every instruction that completes has one of the effects. -/
theorem exec_effect (i : Instr) (s t : State) (h : exec i s = .next t) : Effect i s t := by
  cases i with
  | add _ _ | adc _ _ | adiw _ _ | sub _ _ | subi _ _ | sbc _ _ | sbci _ _ | sbiw _ _ | and _ _ | andi _ _ | or _ _
  | ori _ _ | eor _ _ | com _ | neg _ | sbr _ _ | cbr _ _ | inc _ | dec _ | tst _ | clr _ | ser _ | mul _ _
  | muls _ _ | mulsu _ _ | fmul _ _ | fmuls _ _ | fmulsu _ _ | cp _ _ | cpc _ _ | cpi _ _ | lsl _ | lsr _ | rol _
  | ror _ | asr _ | bclr _ | bst _ _ | sec | clc | sen | cln | sez | clz | cli | ses | cls | sev | clv | set | clt
  | seh | clh =>
    cases h
    exact .flags _ (Calm.refl.other ..)
  | rjmp _ | ijmp | jmp _ | nop | mov _ _ | movw _ _ | ldi _ _ | swap _ | bld _ _ =>
    cases h
    exact (Calm.refl.other ..).effect
  | brbs _ _ | brbc _ _ | breq _ | brne _ | brcs _ | brcc _ | brsh _ | brlo _ | brmi _ | brpl _ | brge _ | brlt _
  | brhs _ | brhc _ | brts _ | brtc _ | brvs _ | brvc _ | brie _ | brid _ => exact branchIf_effect h
  | cpse _ _ | sbrc _ _ | sbrs _ _ => exact skip_effect h
  | sbic _ _ | sbis _ _ => exact skipIo_effect h
  | ldX _ | ldY _ | ldZ _ | lddY _ _ | lddZ _ _ | lds _ _ | inp _ _ => exact loadPlain_effect h
  | ldXInc _ | ldXDec _ | ldYInc _ | ldYDec _ | ldZInc _ | ldZDec _ => exact loadUpdate_effect h
  | stX _ | stY _ | stZ _ | stdY _ _ | stdZ _ _ | sts _ _ | out _ _ => exact storePlain_effect h
  | stXInc _ | stXDec _ | stYInc _ | stYDec _ | stZInc _ | stZDec _ => exact storeUpdate_effect h
  | lpmR0 | lpm _ | elpmR0 | elpm _ => exact loadProg_effect h
  | lpmInc _ => exact lpmIncrement_effect h
  | elpmInc _ => exact elpmIncrement_effect h
  | sbi _ _ | cbi _ _ => exact changeIoBit_effect h
  | push _ => exact execPush_effect h
  | pop _ => exact execPop_effect h
  | rcall _ | icall | call _ => exact callTo_effect h
  | ret => exact execRet_effect h
  | reti => exact .reti rfl (execReti_calm h)
  | sei =>
    cases h
    exact .enable (.inl rfl) (Calm.refl.other ..)
  | bset _ => exact execBset_effect h
  | sleep => exact execSleep_effect h
  | spm => cases h

end Sys2Proof.Proofs.Effects
end

section
/-! PROOF. The invariant of the state, program memory over a step, and the instruction that an interrupt waits for: each
from what a step can be (`step_next`) and what an instruction can do (`exec_effect`). -/

namespace Sys2Proof.Proofs.Effects

open Sys2Proof.Machine Sys2Proof.Laws

/-! ### What a step can be -/

/-- An instruction that a step runs is what the words at pc decode to. -/
theorem runInstr_next {s t : State} (h : runInstr s = .next t) : ∃ i, exec i (s.setInhibit false) = .next t := by
  cases hd : decode (fetchWords s) with
  | ok r => exact ⟨r.1, by simpa only [runInstr, hd] using h⟩
  | error e => cases e <;> simp only [runInstr, hd, reduceCtorEq] at h

/-- A step that completes is the reset event, a moment asleep, an interrupt entry (awake with the latch off, or asleep),
or one instruction, awake and with the latch cleared. -/
theorem step_next {s t : State} (h : step s = .next t) :
    t = resetEvent s.sample ∨ t = s.sample ∨
    (∃ n, (s.asleep = true ∨ s.inhibit = false) ∧ enterInterrupt n s.sample = .next t) ∨
    (s.asleep = false ∧ ∃ i, exec i (s.sample.setInhibit false) = .next t) := by
  simp only [step, runStep, boundary, sample_asleep, sample_flag, sample_inhibit] at h
  split at h
  · exact .inl (Host.Outcome.next.inj h).symm
  · split at h
    · next hsleep =>
      split at h
      · split at h
        · exact .inr (.inr (.inl ⟨_, .inl hsleep, h⟩))
        · exact .inr (.inl (Host.Outcome.next.inj h).symm)
      · exact .inr (.inl (Host.Outcome.next.inj h).symm)
    · next hawake =>
      have ha : s.asleep = false := by simpa using hawake
      split at h
      · split at h
        · split at h
          · exact .inr (.inr (.inr ⟨ha, runInstr_next h⟩))
          · next hlatch => exact .inr (.inr (.inl ⟨_, .inr (by simpa using hlatch), h⟩))
        · exact .inr (.inr (.inr ⟨ha, runInstr_next h⟩))
      · exact .inr (.inr (.inr ⟨ha, runInstr_next h⟩))

/-- An interrupt entry that completes: the push of pc, then the entry's own updates, of SREG (I off, or open) too. -/
theorem enterInterrupt_next {n : Nat} {s t : State} (h : enterInterrupt n s = .next t) :
    ∃ u sreg free, pushPc s.pc s = .ok u ∧ t = { u with
      sreg := sreg
      freeCount := free
      asleep := false
      inhibit := false
      trace := .irqAck n :: u.trace
      pc := vectorAddress s.par n
      cycles := u.cycles + 4 } := by
  unfold enterInterrupt at h
  split at h
  · cases h
  · next u hu =>
    obtain rfl := Host.Outcome.next.inj h
    refine ⟨u, (entrySreg (entryHitsSreg s) u).sreg, (entrySreg (entryHitsSreg s) u).freeCount, hu, ?_⟩
    unfold entrySreg
    split
    · rfl
    · rfl

/-! ### The memories and RAMPZ -/

/-- The part of the invariant that speaks of the memories and of RAMPZ. Every update keeps it, whatever the latch. -/
structure Tidy (s : State) : Prop where
  ramWf : Memory.wf ramBlank s.ram
  flashWf : Memory.wf (some flashBlank) s.flash
  ramMapped : s.ramInMap
  rampzBits : s.rampz &&& rampzMask s.par = s.rampz

section
variable {s t u : State} {a w : Word} {v : Byte}

theorem Tidy.of_inv (h : s.Inv) : Tidy s := { h with }

/-- The invariant is `Tidy` and what it says of the latch. -/
theorem Tidy.inv (h : Tidy s) (hI : s.inhibit = true → s.flag flagI = true)
    (ha : s.asleep = true → s.inhibit = false) : s.Inv :=
  { h with inhibitNeedsI := hI, asleepNotInhibited := ha }

/-- `Tidy` looks at the memories, RAMPZ and the parameters alone. -/
theorem Tidy.congr (h : Tidy s) (hram : t.ram = s.ram) (hflash : t.flash = s.flash) (hpar : t.par = s.par)
    (hrampz : t.rampz = s.rampz) : Tidy t where
  ramWf := hram ▸ h.ramWf
  flashWf := hflash ▸ h.flashWf
  ramMapped := by
    intro c hc
    rw [hpar]
    exact h.ramMapped c (hram ▸ hc)
  rampzBits := by rw [hpar, hrampz, h.rampzBits]

theorem Tidy.calm (h : Tidy s) (hc : Calm s t) : Tidy t := h.congr hc.ram hc.flash hc.par hc.rampz

theorem Tidy.storeByte (h : Tidy s) (hu : storeByte a v s = .ok u) : Tidy u := by
  obtain ⟨-, st⟩ := storeByte_inv _ _ _ _ hu
  have hram := storeByte_ram _ _ _ _ hu
  refine ⟨?_, ?_, ?_, ?_⟩
  · rcases hram with ⟨-, e⟩ | e
    · exact e ▸ write_wf _ _ _ _ h.ramWf
    · exact e ▸ h.ramWf
  · exact storeByte_flash _ _ _ _ hu ▸ h.flashWf
  · intro c hc
    rw [st.par]
    rcases hram with ⟨hm, e⟩ | e
    · rcases mem_write _ _ _ _ _ (e ▸ hc) with rfl | hc
      · exact ⟨a.isLt, by rwa [BitVec.ofNat_toNat, BitVec.setWidth_eq]⟩
      · exact h.ramMapped c hc
    · exact h.ramMapped c (e ▸ hc)
  · rw [st.rampz, st.par]
    split
    · rw [BitVec.and_assoc, BitVec.and_self]
    · exact h.rampzBits

theorem Tidy.pushPc (h : Tidy s) (hu : pushPc w s = .ok u) : Tidy u := by
  unfold Machine.pushPc at hu
  split at hu
  · cases hu
  · next x hx =>
    split at hu
    · cases hu
    · next y hy =>
      cases hu
      exact ((h.storeByte hx).storeByte hy).calm Calm.refl.settleSp

theorem Tidy.effect {i : Instr} (h : Tidy s) (he : Effect i s t) : Tidy t := by
  cases he with
  | flags v ht => exact h.congr ht.ram ht.flash ht.par ht.rampz
  | rampz v hv ht =>
    have hr : Tidy (s.setRampz v) := { h with rampzBits := hv }
    exact hr.calm ht
  | store a v s' u hs hu ht => exact ((h.calm hs).storeByte hu).calm ht
  | push ret u hu ht => exact (h.pushPc hu).calm ht
  | enable _ ht =>
    refine Tidy.calm ?_ ht
    unfold enableInterrupts
    split
    · exact h.congr rfl rfl rfl rfl
    · exact h.congr rfl rfl rfl rfl
  | reti _ ht => exact h.congr ht.ram ht.flash ht.par ht.rampz
  | sleep ht => exact h.congr ht.ram ht.flash ht.par ht.rampz

end

/-! ### The latch and the sleep bit -/

section
variable {s t u : State} {a w : Word} {v : Byte} {i : Instr}

theorem Calm.flag (h : Calm s t) (n : BitNo) : t.flag n = s.flag n := congrArg (bitOf · n) h.sreg

/-- A store anywhere but to SREG leaves the latch and SREG. -/
theorem stores_latch_sreg (h : Stores a v s u) (ha : a ≠ 0x5F) : u.inhibit = s.inhibit ∧ u.sreg = s.sreg :=
  ⟨(h.latch fun hI => ha hI.1).1, by rw [h.sreg, if_neg ha]⟩

/-- With the latch off, a push of a return address leaves it off or I on: one of its two bytes at most lies on SREG. -/
theorem pushPc_latch (h : pushPc w s = .ok u) (hq : s.inhibit = false) :
    u.asleep = s.asleep ∧ (u.inhibit = true → u.flag flagI = true) := by
  unfold pushPc at h
  split at h
  · cases h
  · next x hx =>
    split at h
    · cases h
    · next y hy =>
      cases h
      obtain ⟨-, sx⟩ := storeByte_inv _ _ _ _ hx
      obtain ⟨-, sy⟩ := storeByte_inv _ _ _ _ hy
      have hc : Calm y (settleSp (isSpByte s.sp || isSpByte (s.sp - 1)) (s.sp - 2) y) := Calm.refl.settleSp
      rw [hc.asleep, hc.inhibit, hc.flag]
      refine ⟨sy.asleep.trans sx.asleep, fun hi => ?_⟩
      by_cases hs : s.sp - 1 = 0x5F
      · have hne : s.sp ≠ 0x5F := by rintro e; rw [e] at hs; exact absurd hs (by decide)
        obtain ⟨hl, -⟩ := stores_latch_sreg sx hne
        rcases storeByte_inhibit _ _ _ _ hy with e | e
        · rw [e, hl, hq] at hi; cases hi
        · exact e
      · obtain ⟨hl, hsreg⟩ := stores_latch_sreg sy hs
        rw [State.flag, hsreg]
        rcases storeByte_inhibit _ _ _ _ hx with e | e
        · rw [hl, e, hq] at hi; cases hi
        · exact e

/-- From a state awake with the latch off, an instruction leaves the latch on only with I on, and only awake. -/
theorem Effect.latch (he : Effect i s t) (hq : s.inhibit = false) (ha : s.asleep = false) :
    (t.inhibit = true → t.flag flagI = true) ∧ (t.asleep = true → t.inhibit = false) := by
  have hoff : t.inhibit = false →
      (t.inhibit = true → t.flag flagI = true) ∧ (t.asleep = true → t.inhibit = false) :=
    fun h => ⟨fun hi => absurd (h.symm.trans hi) (by decide), fun _ => h⟩
  have hawake : t.asleep = false → (t.inhibit = true → t.flag flagI = true) →
      (t.inhibit = true → t.flag flagI = true) ∧ (t.asleep = true → t.inhibit = false) :=
    fun h hi => ⟨hi, fun h' => absurd (h.symm.trans h') (by decide)⟩
  cases he with
  | flags v ht => exact hoff (ht.inhibit.trans hq)
  | rampz v hv ht => exact hoff (ht.inhibit.trans hq)
  | sleep ht => exact hoff (ht.inhibit.trans hq)
  | store a v s' u hs hu ht =>
    obtain ⟨-, st⟩ := storeByte_inv _ _ _ _ hu
    refine hawake ((ht.asleep.trans st.asleep).trans (hs.asleep.trans ha)) fun hi => ?_
    rw [ht.flag]
    rcases storeByte_inhibit _ _ _ _ hu with e | e
    · rw [ht.inhibit, e, hs.inhibit, hq] at hi; cases hi
    · exact e
  | push ret u hu ht =>
    obtain ⟨hau, hl⟩ := pushPc_latch hu hq
    refine hawake (ht.asleep.trans (hau.trans ha)) fun hi => ?_
    rw [ht.flag]
    exact hl (ht.inhibit ▸ hi)
  | enable _ ht =>
    have hau : (enableInterrupts s).asleep = false ∧ (enableInterrupts s).flag flagI = true := by
      unfold enableInterrupts
      split
      · next hI => exact ⟨ha, hI⟩
      · exact ⟨ha, bitOf_putBit s.sreg flagI flagI true⟩
    exact hawake (ht.asleep.trans hau.1) fun _ => (ht.flag flagI).trans hau.2
  | reti _ ht => exact hawake (ht.asleep.trans ha) fun _ => (ht.flag flagI).trans (bitOf_putBit s.sreg flagI flagI true)

end

/-! ### The invariant -/

section
variable {s t : State} {i : Instr} {n : Nat}

theorem sample_inv (h : s.Inv) : s.sample.Inv := by
  rw [sample_eq]
  exact { h with }

theorem resetEvent_inv (h : s.Inv) : (resetEvent s).Inv where
  ramWf := reset_ram_wf
  flashWf := by simpa using h.flashWf
  ramMapped := by intro c hc; simp at hc
  rampzBits := by simp
  inhibitNeedsI := by simp
  asleepNotInhibited := by simp

theorem enterInterrupt_inv (h : s.Inv) (he : enterInterrupt n s = .next t) : t.Inv := by
  obtain ⟨u, _, _, hu, rfl⟩ := enterInterrupt_next he
  exact { (Tidy.of_inv h).pushPc hu with inhibitNeedsI := nofun, asleepNotInhibited := nofun }

/-- An instruction that runs from a state awake with the latch cleared keeps the invariant. -/
theorem exec_inv (h : s.Inv) (ha : s.asleep = false) (he : exec i (s.setInhibit false) = .next t) : t.Inv := by
  have heff := exec_effect i _ t he
  have htidy : Tidy (s.setInhibit false) := { h with }
  obtain ⟨hI, hs⟩ := heff.latch rfl ha
  exact (htidy.effect heff).inv hI hs

end

/-- Settles O13: the four things a step can be, one by one. -/
theorem stepKeepsInvariant : Obligations.StepKeepsInvariant := by
  intro s t h hstep
  rcases step_next hstep with rfl | rfl | ⟨n, -, he⟩ | ⟨ha, i, he⟩
  · exact resetEvent_inv (sample_inv h)
  · exact sample_inv h
  · exact enterInterrupt_inv (sample_inv h) he
  · exact exec_inv (sample_inv h) ((sample_asleep s).trans ha) he

/-- Settles O12: with both memories empty, and RAMPZ, the latch and the sleep bit 0. -/
theorem resetStateInvariant : Obligations.ResetStateInvariant where
  ramWf := reset_ram_wf
  flashWf := reset_flash_wf
  ramMapped := by intro c hc; cases hc
  rampzBits := by decide
  inhibitNeedsI := by decide
  asleepNotInhibited := by decide

end Sys2Proof.Proofs.Effects
end

section
/-! PROOF. Program memory over a step, and the one instruction that runs after SEI or RETI before a pending interrupt is
taken. -/

namespace Sys2Proof.Proofs.Effects

open Sys2Proof.Machine Sys2Proof.Laws Sys2Proof.Proofs.Scope

/-! ### Program memory -/

/-- An interrupt entry writes inside the cells of a call. -/
theorem enterInterrupt_program {n : Nat} {s t : State} (h : enterInterrupt n s = .next t) :
    (∀ a, t.flashByte a = s.flashByte a) ∧ t.par = s.par := by
  obtain ⟨u, _, _, hu, rfl⟩ := enterInterrupt_next h
  have hw : Within ⟨[], [], fun s => [s.sp, s.sp - 1], true⟩ s u := pushPc_within hu (.head _) (.tail _ (.head _))
  exact ⟨hw.flash, hw.par⟩

theorem exec_program {i : Instr} {s t : State} (h : exec i s = .next t) :
    (∀ a, t.flashByte a = s.flashByte a) ∧ t.par = s.par := by
  obtain ⟨-, -, -, -, hflash, hpar, -⟩ := rowCellsHold i s t h
  exact ⟨hflash, hpar⟩

/-- Settles O14: neither the reset event, nor the lines, nor an entry, nor an instruction writes them. -/
theorem programMemoryConstant : Obligations.ProgramMemoryConstant := by
  intro s t h
  rcases step_next h with rfl | rfl | ⟨n, -, he⟩ | ⟨-, i, he⟩
  · simp
  · simp
  · simpa using enterInterrupt_program he
  · simpa using exec_program he

/-! ### Turning I on -/

/-- SEI with I clear. -/
theorem enableInterrupts_off {s : State} (h : s.flag flagI = false) :
    enableInterrupts s = { s with sreg := s.sreg ||| 0x80, inhibit := true } := by
  rw [enableInterrupts, h]
  rfl

/-- SEI with I set already (log 24). -/
theorem enableInterrupts_on {s : State} (h : s.flag flagI = true) :
    enableInterrupts s = { s with inhibit := s.freeBit, freeCount := s.freeCount + 1 } := by
  rw [enableInterrupts, h]
  rfl

/-- SEI and `BSET 7` are the same operation. -/
theorem exec_enable {i : Instr} (s : State) (hi : i = .sei ∨ i = .bset flagI) :
    exec i s = .next ((enableInterrupts s).advance 1 1) := by
  rcases hi with rfl | rfl
  · rfl
  · rfl

/-- Settles O58. -/
theorem turningInterruptsOn : Obligations.TurningInterruptsOn := by
  intro s i hi
  rw [exec_enable s hi]
  refine ⟨fun hI => ?_, fun hI => ⟨s.freeBit, ?_⟩⟩
  · rw [enableInterrupts_off hI]; rfl
  · rw [enableInterrupts_on hI]; rfl

/-! ### The instruction that an interrupt waits for -/

/-- What decodes is its own parent: every row of the opcode table builds a primary instruction. -/
theorem decode_canonical {ws rest : List Word} {i : Instr} (h : decode ws = .ok (i, rest)) : canonical i = i := by
  have hrows : ∀ r ∈ opcodeTable, ∀ w k, canonical (r.build w k) = r.build w k := by
    simp only [opcodeTable, rowsArith, rowsBranch, rowsControl, rowsTransfer, rowsBits, List.forall_mem_append,
      List.forall_mem_cons, List.not_mem_nil, false_imp_iff, implies_true, and_true]
    and_intros <;> exact fun _ _ => rfl
  unfold decode at h
  split at h
  · cases h
  · split at h
    · cases h
    · next r hr =>
      have hmem := List.mem_of_find?_eq_some hr
      split at h
      · split at h
        · cases h
        · cases h; exact hrows r hmem _ _
      · cases h; exact hrows r hmem _ _

section
variable {i : Instr} {s t : State}

/-- With I on and the latch off, only SEI and RETI can set the latch: a write of SREG sets it only where it turns I
on. -/
theorem Effect.inhibit_off (he : Effect i s t) (hI : s.flag flagI = true) (hq : s.inhibit = false)
    (hsei : i ≠ .sei) (hbset : i ≠ .bset flagI) (hreti : i ≠ .reti) : t.inhibit = false := by
  cases he with
  | flags v ht => exact ht.inhibit.trans hq
  | rampz v hv ht => exact ht.inhibit.trans hq
  | sleep ht => exact ht.inhibit.trans hq
  | store a v s' u hs hu ht =>
    obtain ⟨-, st⟩ := storeByte_inv _ _ _ _ hu
    obtain ⟨hl, -⟩ := st.latch fun h => by rw [hs.flag, hI] at h; exact absurd h.2.2 (by decide)
    exact (ht.inhibit.trans hl).trans (hs.inhibit.trans hq)
  | push ret u hu ht =>
    obtain ⟨x, y, sx, sy, rfl⟩ := pushPc_next hu
    have hc : Calm y (settleSp (isSpByte s.sp || isSpByte (s.sp - 1)) (s.sp - 2) y) := Calm.refl.settleSp
    obtain ⟨hx, -⟩ := sx.latch fun h => by rw [hI] at h; exact absurd h.2.2 (by decide)
    have hy : y.inhibit = x.inhibit := by
      by_cases hs : s.sp = 0x5F
      · exact (stores_latch_sreg sy (by rw [hs]; decide)).1
      · obtain ⟨-, hsreg⟩ := stores_latch_sreg sx hs
        exact (sy.latch fun h => by
          rw [State.flag, hsreg, ← State.flag, hI] at h; exact absurd h.2.2 (by decide)).1
    exact ht.inhibit.trans (hc.inhibit.trans (hy.trans (hx.trans hq)))
  | enable hi ht => exact (hi.elim hsei hbset).elim
  | reti hi ht => exact (hreti hi).elim

/-- SEI with I clear, and RETI, leave I and the latch on, and the sleep bit as it was. -/
theorem exec_holds (hi : i = .bset flagI ∧ s.flag flagI = false ∨ i = .reti) (h : exec i s = .next t) :
    t.flag flagI = true ∧ t.inhibit = true ∧ t.asleep = s.asleep := by
  rcases hi with ⟨rfl, hI⟩ | rfl
  · rw [exec_enable s (.inr rfl), enableInterrupts_off hI] at h
    cases h
    exact ⟨bitOf_putBit s.sreg flagI flagI true, rfl, rfl⟩
  · have hc := execReti_calm h
    exact ⟨(hc.flag flagI).trans (bitOf_putBit s.sreg flagI flagI true), hc.inhibit, hc.asleep⟩

/-- The lines, the parameters and so the pending vector are as they were after an instruction. -/
theorem exec_lines (h : exec i s = .next t) : t.inputs = s.inputs ∧ t.pins = s.pins ∧ t.par = s.par := by
  obtain ⟨-, -, -, -, -, hpar, hpins, hinputs, -⟩ := rowCellsHold i s t h
  exact ⟨hinputs, hpins, hpar⟩

/-- With the lines at rest, a step that runs an instruction. -/
theorem step_exec {rest : List Word} (hin : s.inputs = []) (hrun : s.RunsInstruction)
    (hd : decode (fetchWords s) = .ok (i, rest)) : step s = exec i (s.setInhibit false) := by
  rw [step_runs s hrun, sample_of_inputs_nil s hin]
  simp only [runInstr, hd]

/-- A step that takes a pending interrupt. -/
theorem step_enters {n : Nat} (hr : s.sample.pins.reset = false) (hI : s.flag flagI = true)
    (hq : s.asleep = true ∨ s.inhibit = false) (hn : s.sample.pending = some n) :
    step s = enterInterrupt n s.sample := by
  simp only [step, runStep, boundary, hr, sample_asleep, sample_flag, sample_inhibit, hI, hn, Bool.false_eq_true,
    if_false, if_true]
  split
  · rfl
  · next ha => rw [if_neg (by simpa [ha] using hq)]

/-- An interrupt entry with its stack clear of SP. -/
theorem enterInterrupt_ok (n : Nat) (h : StackByte s s.sp) (h' : StackByte s (s.sp - 1)) :
    ∃ v, enterInterrupt n s = .next v ∧ v.pc = vectorAddress s.par n ∧ v.sp = s.sp - 2 ∧
      v.trace.head? = some (.irqAck n) := by
  obtain ⟨w, hw, x, y, -, -, rfl⟩ := pushPc_ok s.pc s h h'
  refine ⟨_, by simp only [enterInterrupt, hw]; rfl, rfl, ?_, rfl⟩
  unfold entrySreg
  split
  · rfl
  · rfl

end

/-- Settles O9: the latch lets the one instruction run, which leaves it off; then the entry. -/
theorem seiHoldsOffOneInstruction : Obligations.SeiHoldsOffOneInstruction := by
  intro s t u i j rest rest' n hin hrun hpend hdi hi hexi hdj hbset hreti hexj hI hst hst'
  have ⟨hr, ha, _⟩ := hrun
  rw [sample_of_inputs_nil s hin] at hr
  obtain ⟨htin, htpins, htpar⟩ := exec_lines hexi
  obtain ⟨huin, hupins, hupar⟩ := exec_lines hexj
  obtain ⟨htI, htq, hta⟩ := exec_holds (s := s.setInhibit false) hi hexi
  have htin : t.inputs = [] := htin.trans hin
  have huin : u.inputs = [] := huin.trans htin
  have hupins : u.pins = s.pins := hupins.trans htpins
  have hupar : u.par = s.par := hupar.trans htpar
  have hsei : j ≠ .sei := by rintro rfl; cases decode_canonical hdj
  have htruns : t.RunsInstruction := by
    refine ⟨?_, hta.trans ha, .inr (.inr htq)⟩
    rw [sample_of_inputs_nil t htin, htpins]
    exact hr
  have huq : u.inhibit = false := (exec_effect j _ u hexj).inhibit_off htI rfl hsei hbset hreti
  have hupend : u.sample.pending = some n := by
    rw [sample_of_inputs_nil u huin, State.pending, hupins, hupar]
    exact hpend
  have hureset : u.sample.pins.reset = false := by rw [sample_of_inputs_nil u huin, hupins]; exact hr
  refine ⟨(step_exec hin hrun hdi).trans hexi, (step_exec htin htruns hdj).trans hexj, ?_⟩
  rw [step_enters hureset hI (.inr huq) hupend, sample_of_inputs_nil u huin, ← hupar]
  exact enterInterrupt_ok n hst hst'

end Sys2Proof.Proofs.Effects
end

section
/-! PROOF. The sign bit S is N xor V wherever both are written (spec/10_state.md R32): it is packed so under each of the
three masks that hold N and V. -/

namespace Sys2Proof.Proofs.Sign

open Sys2Proof.Machine Sys2Proof.Laws

/-- S is N xor V in a value of SREG. -/
def SignSound (v : Byte) : Prop := bitOf v flagS = (bitOf v flagN != bitOf v flagV)

section
variable {h v n z c : Bool} {old : Byte}

theorem merge6_sign : SignSound (mergeFlags maskHSVNZC (packFlags h (n != v) v n z c) old) := by
  obtain ⟨-, hs, hv, hn, -, -⟩ := bitOf_merge6 h (n != v) v n z c old
  rw [SignSound, hs, hv, hn]

theorem merge5_sign : SignSound (mergeFlags maskSVNZC (packFlags h (n != v) v n z c) old) := by
  obtain ⟨hs, hv, hn, -, -⟩ := bitOf_merge5 h (n != v) v n z c old
  rw [SignSound, hs, hv, hn]

theorem merge4_sign : SignSound (mergeFlags maskSVNZ (packFlags h (n != v) v n z c) old) := by
  obtain ⟨hs, hv, hn, -⟩ := bitOf_merge4 h (n != v) v n z c old
  rw [SignSound, hs, hv, hn]

end

/-- A logic operation clears V, so that S is N. -/
theorem logicFlags_sign (r x : Byte) : SignSound (logicFlags r x) := by
  have hs : SignSound (mergeFlags maskSVNZ (packFlags false (r[7] != false) false r[7] (r == 0) false) x) := merge4_sign
  rwa [Bool.bne_false] at hs

/-- COM clears V as the logic operations do. -/
theorem comFlags_sign (r x : Byte) : SignSound (comFlags r x) := by
  have hs : SignSound (mergeFlags maskSVNZC (packFlags false (r[7] != false) false r[7] (r == 0) true) x) := merge5_sign
  rwa [Bool.bne_false] at hs

/-- Settles O18: the rows that name N and V write one of the masks, and no other row names both. -/
theorem signIsNXorV : Obligations.SignIsNXorV := by
  intro i s t hV hN h
  have one : ∀ n : BitNo, flagV ∈ [n] → flagN ∈ [n] → False := by decide
  cases i with
  | add _ _ | adc _ _ | sub _ _ | subi _ _ | sbc _ _ | sbci _ _ | neg _ | cp _ _ | cpc _ _ | cpi _ _ | lsl _ | rol _ =>
    cases h
    exact merge6_sign
  | adiw _ _ | sbiw _ _ | lsr _ | ror _ | asr _ =>
    cases h
    exact merge5_sign
  | inc _ | dec _ =>
    cases h
    exact merge4_sign
  | and _ _ | andi _ _ | or _ _ | ori _ _ | eor _ _ | sbr _ _ | cbr _ _ | tst _ | clr _ =>
    cases h
    exact logicFlags_sign _ _
  | com _ =>
    cases h
    exact comFlags_sign _ _
  | mul _ _ | muls _ _ | mulsu _ _ | fmul _ _ | fmuls _ _ | fmulsu _ _ =>
    have hno : flagV ∉ [flagZ, flagC] := by decide
    exact (hno hV).elim
  | reti | bset _ | bclr _ | bst _ _ | sec | clc | sen | cln | sez | clz | sei | cli | ses | cls | sev | clv | set | clt
  | seh | clh => exact (one _ hV hN).elim
  | _ => cases hV

end Sys2Proof.Proofs.Sign
end

section
/-! PROOF. The stack (spec/10_state.md R36): calls, returns, PUSH and POP from the pushes and pops of the state, and
what a byte stacked in data memory reads as when it is taken back. -/

namespace Sys2Proof.Proofs.Stack

open Sys2Proof.Machine Sys2Proof.Laws

/-! ### Calls and returns -/

/-- A call with its stack clear of SP. -/
theorem callTo_ok {s : State} (ret target : Word) (cyc : Nat) (h : StackByte s s.sp) (h' : StackByte s (s.sp - 1)) :
    ∃ w, Pushes ret s w ∧ callTo ret target cyc s = .next { w with pc := target, cycles := w.cycles + cyc } := by
  obtain ⟨w, hw, hp⟩ := pushPc_ok ret s h h'
  refine ⟨w, hp, ?_⟩
  rw [callTo, hw]
  rfl

theorem absTarget_eq (k : BitVec 22) : absTarget k = k.setWidth 16 := by
  apply BitVec.eq_of_toNat_eq
  simp [absTarget]

/-- Settles O33. -/
theorem callsPushReturnAddress : Obligations.CallsPushReturnAddress := by
  intro s h h'
  refine ⟨fun k => callTo_ok _ _ 3 h h', callTo_ok _ _ 3 h h', fun k => ?_⟩
  rw [← absTarget_eq]
  exact callTo_ok _ _ 4 h h'

/-- Settles O34. -/
theorem returnsPopAddress : Obligations.ReturnsPopAddress := by
  intro s h h'
  refine ⟨?_, fun hl hh => ?_⟩
  · obtain ⟨hi, lo, u, w, hpop, hu, hw⟩ := popPc_ok false s h h' (fun e => by cases e)
    refine ⟨hi, lo, u, w, hu, hw, ?_⟩
    simp only [exec, execRet, hpop]
    rfl
  · obtain ⟨hi, lo, u, w, hpop, hu, hw⟩ := popPc_ok true s h h' (fun _ => ⟨hl, hh⟩)
    refine ⟨hi, lo, u, w, hu, hw, ?_⟩
    have hsreg : w.sreg = s.sreg := by rw [Loads_state hw, Loads_state hu]
    simp only [exec, execReti, returnFromInterrupt, hpop]
    rw [← hsreg]
    rfl

/-! ### PUSH and POP -/

/-- Settles O51. -/
theorem pushAndPop : Obligations.PushAndPop := by
  intro s r
  refine ⟨fun h => ?_, fun h => ?_⟩
  · obtain ⟨u, hu, st⟩ := push8_ok (s.reg r) s h
    refine ⟨u, st, ?_⟩
    simp only [exec, execPush, hu, Except.map, settle_ok]
    rw [← st.pc]
    rfl
  · obtain ⟨v, u, hu, ld⟩ := pop8_ok s h
    refine ⟨v, u, ld, ?_⟩
    have hpc : u.pc = s.pc := by rw [Loads_state ld]
    simp only [exec, execPop, hu]
    rw [← hpc]
    rfl

/-! ### The stack in data memory -/

section
variable {s : State} {a : Word}

/-- Data memory is at neither half of SP, nor at SREG. -/
theorem isReturnClash_memory (b : Bool) (h : region s.par a = .memory) : isReturnClash b a = false := by
  apply isReturnClash_false
  · rintro rfl; simp at h
  · rintro rfl; simp at h
  · rintro - rfl; simp at h

theorem isSpByte_memory (h : region s.par a = .memory) : isSpByte a = false := by
  simpa [isReturnClash] using isReturnClash_memory false h

theorem popByteAt_memory (h : region s.par a = .memory) : popByteAt false a s = .ok (s.ramByte a.toNat, s) := by
  simp only [popByteAt, loadByte_memory a s h, Bool.false_eq_true, if_false]

theorem push8_memory (v : Byte) (h : region s.par s.sp = .memory) :
    push8 v s = .ok ((s.setRam (Memory.write ramBlank s.ram s.sp.toNat v)).setSp (s.sp - 1)) := by
  simp only [push8, storeByte_memory _ _ _ h, isSpByte_memory h, settleSp, Bool.false_eq_true, if_false]

theorem pop8_memory (h : region s.par (s.sp + 1) = .memory) :
    pop8 s = .ok (s.ramByte (s.sp + 1).toNat, s.setSp (s.sp + 1)) := by
  simp only [pop8, isSpByte_memory h, popByteAt_memory h]

theorem popPc_memory (b : Bool) (h : region s.par (s.sp + 1) = .memory) (h' : region s.par (s.sp + 2) = .memory) :
    popPc b s =
      .ok (joinBytes (s.ramByte (s.sp + 1).toNat) (s.ramByte (s.sp + 2).toNat), s.setSp (s.sp + 2)) := by
  simp only [popPc, isReturnClash_memory b h, isReturnClash_memory b h', popByteAt_memory h, popByteAt_memory h']

/-- What a push of a return address does to data memory and SP where the stack lies there, and what it leaves. -/
theorem pushPc_memory_next {ret : Word} {w : State} (h : region s.par s.sp = .memory)
    (h' : region s.par (s.sp - 1) = .memory) (hw : pushPc ret s = .ok w) :
    w.sp = s.sp - 2 ∧ w.par = s.par ∧ w.regs = s.regs ∧ w.sreg = s.sreg ∧ w.rampz = s.rampz ∧
      ∀ b, w.ramByte b =
        if b = (s.sp - 1).toNat then highByte ret else if b = s.sp.toNat then lowByte ret else s.ramByte b := by
  rw [pushPc_memory ret s h h'] at hw
  obtain rfl := Except.ok.inj hw
  refine ⟨rfl, rfl, rfl, rfl, rfl, fun b => ?_⟩
  have hb := ramByte_setRam_write (s.sp - 1).toNat b (highByte ret)
    (s.setRam (Memory.write ramBlank s.ram s.sp.toNat (lowByte ret)))
  rw [ramByte_setRam_write s.sp.toNat b (lowByte ret) s] at hb
  exact hb

/-- RET with its stack in data memory. -/
theorem exec_ret_memory (h : region s.par (s.sp + 1) = .memory) (h' : region s.par (s.sp + 2) = .memory) :
    exec .ret s = .next ((s.setSp (s.sp + 2)).jump
      (joinBytes (s.ramByte (s.sp + 1).toNat) (s.ramByte (s.sp + 2).toNat)) 4) := by
  simp only [exec, execRet, popPc_memory false h h']

/-- PUSH with its stack in data memory. -/
theorem exec_push_memory (r : Reg) (h : region s.par s.sp = .memory) :
    exec (.push r) s = .next
      (((s.setRam (Memory.write ramBlank s.ram s.sp.toNat (s.reg r))).setSp (s.sp - 1)).advance 1 2) := by
  simp only [exec, execPush, push8_memory _ h, Except.map, settle_ok]

/-- POP with its stack in data memory. -/
theorem exec_pop_memory (d : Reg) (h : region s.par (s.sp + 1) = .memory) :
    exec (.pop d) s =
      .next (((s.setSp (s.sp + 1)).setReg d (s.ramByte (s.sp + 1).toNat)).advance 1 2) := by
  simp only [exec, execPop, pop8_memory h]

end

/-- RCALL, ICALL and CALL stack the address after them. -/
theorem exec_call {i : Instr} (s : State) (hi : (∃ k, i = .rcall k) ∨ i = .icall ∨ (∃ k, i = .call k)) :
    ∃ target cyc, exec i s = callTo (s.pc + BitVec.ofNat 16 (encode i).length) target cyc s := by
  rcases hi with ⟨k, rfl⟩ | rfl | ⟨k, rfl⟩
  · exact ⟨_, _, rfl⟩
  · exact ⟨_, _, rfl⟩
  · exact ⟨_, _, rfl⟩

/-- Settles O35: the two bytes pushed are the two bytes popped. -/
theorem callThenReturn : Obligations.CallThenReturn := by
  intro s t i h h' hi ht
  obtain ⟨target, cyc, hcall⟩ := exec_call s hi
  obtain ⟨w, hw, rfl⟩ := callTo_next (hcall ▸ ht)
  obtain ⟨hsp, hpar, hregs, hsreg, hrampz, hram⟩ := pushPc_memory_next h h' hw
  have hhigh : w.sp + 1 = s.sp - 1 := by rw [hsp]; bv_omega
  have hlow : w.sp + 2 = s.sp := by rw [hsp]; exact BitVec.sub_add_cancel _ _
  have hne : s.sp.toNat ≠ (s.sp - 1).toNat := by bv_omega
  have hret := exec_ret_memory (s := w.jump target cyc) (by rw [jump_par, jump_sp, hpar, hhigh, h'])
    (by rw [jump_par, jump_sp, hpar, hlow, h])
  simp only [jump_sp, jump_ramByte, hhigh, hlow, hram, if_true, if_neg hne, joinBytes_high_low] at hret
  refine ⟨_, hret, rfl, rfl, fun j _ => ?_, fun n _ => ?_, hrampz, fun a ha ha' => ?_⟩
  · exact congrArg (fun rs => rs[j.val]) hregs
  · exact congrArg (bitOf · n) hsreg
  · exact (hram a).trans ((if_neg ha').trans (if_neg ha))

/-- Settles O52. -/
theorem pushThenPop : Obligations.PushThenPop := by
  intro s r d h
  have hsp : s.sp - 1 + 1 = s.sp := BitVec.sub_add_cancel _ _
  refine ⟨_, _, exec_push_memory r h, exec_pop_memory d (by rwa [advance_sp, setSp_sp, hsp]), ?_, ?_, ?_, ?_, ?_, ?_⟩
  · simp [ramByte_setRam_write]
  · simp
  · intro j hj
    have hjd : j ≠ d := by simpa using hj
    simp [hjd]
  · exact fun n _ => rfl
  · simp [BitVec.add_assoc]
  · intro a ha
    simp [ramByte_setRam_write, ha]

end Sys2Proof.Proofs.Stack
end

section
/-! PROOF. Where the map has nothing (spec/20_memory.md R73): each shared operation of the data space and of the stack
is stuck at the address it cannot reach, and so is each instruction that uses it. -/

namespace Sys2Proof.Proofs.Stack

open Sys2Proof.Machine Sys2Proof.Laws

/-! ### The shared operations -/

section
variable {s : State} {a new : Word} {d r : Reg} {p : Ptr} {len cyc : Nat}

theorem loadPlain_stuck (h : region s.par a = .unmapped) :
    loadPlain len cyc d a s = .fault (.unmappedData a) := by
  simp only [loadPlain, loadByte_unmapped a s h]

theorem loadUpdate_stuck (h : region s.par a = .unmapped) :
    loadUpdate p d a new s = .fault (.unmappedData a) := by
  simp only [loadUpdate, loadByte_unmapped a s h]

theorem storePlain_stuck (h : region s.par a = .unmapped) :
    storePlain len cyc r a s = .fault (.unmappedData a) := by
  simp only [storePlain, storeByte_unmapped a _ s h, Except.map, settle_error]

theorem storedByte_par : (storedByte p r s).2.par = s.par := by
  unfold storedByte
  split
  · rfl
  · rfl

theorem storeUpdate_stuck (h : region s.par a = .unmapped) :
    storeUpdate p r a new s = .fault (.unmappedData a) := by
  have h' : region (storedByte p r s).2.par a = .unmapped := by rw [storedByte_par, h]
  simp only [storeUpdate, storeByte_unmapped a _ _ h', Except.map, settle_error]

theorem execPush_stuck (h : region s.par s.sp = .unmapped) : execPush r s = .fault (.unmappedData s.sp) := by
  simp only [execPush, push8, storeByte_unmapped _ _ s h, Except.map, settle_error]

theorem execPop_stuck (h : region s.par (s.sp + 1) = .unmapped) :
    execPop d s = .fault (.unmappedData (s.sp + 1)) := by
  simp only [execPop, pop8, popByteAt, loadByte_unmapped _ s h]

/-- A call is stuck where the push of its return address is: at the first stack byte that has no place. -/
theorem callTo_stuck (ret target : Word) (cyc : Nat) (s : State) :
    (region s.par s.sp = .unmapped → callTo ret target cyc s = .fault (.unmappedData s.sp)) ∧
    (region s.par s.sp ≠ .unmapped → region s.par (s.sp - 1) = .unmapped →
      callTo ret target cyc s = .fault (.unmappedData (s.sp - 1))) := by
  obtain ⟨h1, h2⟩ := pushPc_stuck ret s
  refine ⟨fun h => ?_, fun h h' => ?_⟩
  · simp only [callTo, h1 h, Except.map, settle_error]
  · simp only [callTo, h2 h h', Except.map, settle_error]

theorem popPc_stuck_first (b : Bool) (h : region s.par (s.sp + 1) = .unmapped) :
    popPc b s = .error (.unmappedData (s.sp + 1)) := by
  simp only [popPc, popByteAt, loadByte_unmapped _ s h]

/-- RET is stuck where the pop of its return address is. -/
theorem execRet_stuck (h : popPc false s = .error (.unmappedData a)) : execRet s = .fault (.unmappedData a) := by
  simp only [execRet, h]

/-- RETI is stuck where the pop of its return address is. -/
theorem execReti_stuck (h : popPc true s = .error (.unmappedData a)) : execReti s = .fault (.unmappedData a) := by
  simp only [execReti, returnFromInterrupt, h]

/-- An interrupt entry is stuck where the push of its return address is. -/
theorem enterInterrupt_stuck {n : Nat} (h : pushPc s.pc s = .error (.unmappedData a)) :
    enterInterrupt n s = .fault (.unmappedData a) := by
  simp only [enterInterrupt, h]

end

/-- Settles O46: row by row, then the entry by the push that it makes. -/
theorem unmappedDataStuck : Obligations.UnmappedDataStuck := by
  refine ⟨fun d q k k12 k22 s i a hm h => ?_, fun k12 k22 s i a b hm ha hb => ?_, fun s hr hI hq hp => ?_⟩
  · fin_cases hm
    exacts [
      loadPlain_stuck h, loadUpdate_stuck h, loadUpdate_stuck h,
      loadPlain_stuck h, loadUpdate_stuck h, loadUpdate_stuck h, loadPlain_stuck h,
      loadPlain_stuck h, loadUpdate_stuck h, loadUpdate_stuck h, loadPlain_stuck h, loadPlain_stuck h,
      storePlain_stuck h, storeUpdate_stuck h, storeUpdate_stuck h,
      storePlain_stuck h, storeUpdate_stuck h, storeUpdate_stuck h, storePlain_stuck h,
      storePlain_stuck h, storeUpdate_stuck h, storeUpdate_stuck h, storePlain_stuck h, storePlain_stuck h,
      execPush_stuck h, execPop_stuck h,
      (callTo_stuck _ _ _ s).1 h, (callTo_stuck _ _ _ s).1 h, (callTo_stuck _ _ _ s).1 h,
      execRet_stuck (popPc_stuck_first _ h), execReti_stuck (popPc_stuck_first _ h)]
  · fin_cases hm
    exacts [(callTo_stuck _ _ _ s).2 ha hb, (callTo_stuck _ _ _ s).2 ha hb, (callTo_stuck _ _ _ s).2 ha hb,
      execRet_stuck (popPc_stuck _ s ha hb), execReti_stuck (popPc_stuck _ s ha hb)]
  · obtain ⟨n, hn⟩ := Option.ne_none_iff_exists'.1 hp
    obtain ⟨h1, h2⟩ := pushPc_stuck s.pc s.sample
    simp only [sample_par, sample_sp] at h1 h2
    rw [Effects.step_enters hr hI hq hn]
    exact ⟨fun h => enterInterrupt_stuck (by rw [sample_pc, h1 h]),
      fun h h' => enterInterrupt_stuck (by rw [sample_pc, h2 h h'])⟩

end Sys2Proof.Proofs.Stack
end

section
/-! PROOF. SREG, SP and RAMPZ through the I/O space (spec/10_state.md R33 to R37): OUT stores at the location's data
address, IN loads from it. -/

namespace Sys2Proof.Proofs.CoreIo

open Sys2Proof.Machine Sys2Proof.Laws

/-- OUT then IN of one location: a store of Rr, a load into Rd, and nothing between them. -/
theorem out_then_inp (a : BitVec 6) (r d : Reg) (s : State) :
    ∃ u v w, Stores (ioAddr a) (s.reg r) s u ∧ Loads (ioAddr a) (u.advance 1 1) v w ∧
      exec (.out a r) s = .next (u.advance 1 1) ∧
      exec (.inp d a) (u.advance 1 1) = .next ((w.setReg d v).advance 1 1) := by
  obtain ⟨u, hu, st⟩ := storeByte_ok (ioAddr a) (s.reg r) s (region_io_mapped _ a)
  obtain ⟨v, w, hw, ld⟩ := loadByte_ok (ioAddr a) (u.advance 1 1) (region_io_mapped _ a)
  refine ⟨u, v, w, st, ld, ?_, ?_⟩
  · simp only [exec, execOut, storePlain, hu, Except.map, settle_ok]
  · simp only [exec, execInp, loadPlain, hw]

/-- Flags are left alone by a store to another location than SREG and the load that follows. -/
theorem keepsFlags_of_stores {a : Word} {x v : Byte} {d : Reg} {s u w : State} (st : Stores a x s u)
    (ld : Loads a (u.advance 1 1) v w) (ha : a ≠ 0x5F) : KeepsFlags [] s ((w.setReg d v).advance 1 1) := by
  have hw : w.sreg = s.sreg := by
    rw [Loads_state ld]
    exact st.sreg.trans (if_neg ha)
  exact fun n _ => congrArg (bitOf · n) hw

/-- Settles O60: the location is read as it was written. -/
theorem coreRegistersThroughIo : Obligations.CoreRegistersThroughIo := by
  intro r d s
  refine ⟨?_, ?_, ?_, ?_⟩
  · obtain ⟨u, v, w, st, ld, hout, hinp⟩ := out_then_inp 0x3F r d s
    have hu : u.sreg = s.reg r := st.sreg
    refine ⟨_, _, hout, hinp, hu, ?_, fun hI => ?_⟩
    · simpa [hu] using ld.sreg rfl
    · refine (st.latch fun h => ?_).1
      obtain ⟨-, hr, hs⟩ := h
      rcases hI with hI | hI
      · rw [hI] at hs; cases hs
      · rw [hI] at hr; cases hr
  · obtain ⟨u, v, w, st, ld, hout, hinp⟩ := out_then_inp 0x3E r d s
    have hu : u.sp = joinBytes (s.reg r) (lowByte s.sp) := st.sp
    refine ⟨_, _, hout, hinp, hu, ?_, keepsFlags_of_stores st ld (by decide)⟩
    simpa [hu] using ld.sph rfl
  · obtain ⟨u, v, w, st, ld, hout, hinp⟩ := out_then_inp 0x3D r d s
    have hu : u.sp = joinBytes (highByte s.sp) (s.reg r) := st.sp
    refine ⟨_, _, hout, hinp, hu, ?_, keepsFlags_of_stores st ld (by decide)⟩
    simpa [hu] using ld.spl rfl
  · obtain ⟨u, v, w, st, ld, hout, hinp⟩ := out_then_inp 0x3B r d s
    have hu : u.rampz = s.reg r &&& rampzMask s.par := st.rampz
    refine ⟨_, _, hout, hinp, hu, ?_, keepsFlags_of_stores st ld (by decide)⟩
    simpa [hu, st.par, BitVec.and_assoc] using ld.rampz rfl

end Sys2Proof.Proofs.CoreIo
end

section
/-! PROOF. Loads and stores that leave their pointer alone, and the read-modify-write of an I/O bit (spec/20_memory.md
R69, R72, R78): each is one load or one store of the data space, or one of each, and then the move of pc. -/

namespace Sys2Proof.Proofs.DataAccess

open Sys2Proof.Machine Sys2Proof.Laws

/-! ### Loads and stores -/

section
variable {s : State} {a : Word}

/-- A load through no updated pointer completes wherever something is mapped. -/
theorem loadPlain_ok {len cyc : Nat} {d : Reg} (h : region s.par a ≠ .unmapped) :
    ∃ v u, Loads a s v u ∧ loadPlain len cyc d a s = .next { u with
      regs := u.regs.set d v, pc := s.pc + BitVec.ofNat 16 len, cycles := u.cycles + cyc } := by
  obtain ⟨v, u, hu, ld⟩ := loadByte_ok a s h
  have hpc : u.pc = s.pc := by rw [Loads_state ld]
  refine ⟨v, u, ld, ?_⟩
  rw [loadPlain, hu, ← hpc]
  rfl

/-- A store through no updated pointer completes wherever something is mapped. -/
theorem storePlain_ok {len cyc : Nat} {r : Reg} (h : region s.par a ≠ .unmapped) :
    ∃ u, Stores a (s.reg r) s u ∧ storePlain len cyc r a s = .next { u with
      pc := s.pc + BitVec.ofNat 16 len, cycles := u.cycles + cyc } := by
  obtain ⟨u, hu, st⟩ := storeByte_ok a (s.reg r) s h
  refine ⟨u, st, ?_⟩
  rw [storePlain, hu, ← st.pc]
  rfl

/-- Settles O41: each of these loads is a plain load from the address of its row. -/
theorem loadsKeepingPointer : Obligations.LoadsKeepingPointer := by
  intro d q io k s i a len cyc hm h
  fin_cases hm
  all_goals exact loadPlain_ok h

/-- Settles O43: each of these stores is a plain store to the address of its row. -/
theorem storesKeepingPointer : Obligations.StoresKeepingPointer := by
  intro r q io k s i a len cyc hm h
  fin_cases hm
  all_goals exact storePlain_ok h

/-! ### A store, then a load -/

/-- STS to data memory. -/
theorem exec_sts_memory (r : Reg) (h : region s.par a = .memory) :
    exec (.sts a r) s =
      .next ((s.setRam (Memory.write ramBlank s.ram a.toNat (s.reg r))).advance 2 2) := by
  simp only [exec, execSts, storePlain, storeByte_memory a _ s h, Except.map, settle_ok]

/-- LDS from data memory. -/
theorem exec_lds_memory (d : Reg) (h : region s.par a = .memory) :
    exec (.lds d a) s = .next ((s.setReg d (s.ramByte a.toNat)).advance 2 2) := by
  simp only [exec, execLds, loadPlain, loadByte_memory a s h]

end

/-- Settles O47. -/
theorem storeThenLoad : Obligations.StoreThenLoad := by
  intro k r d s h
  refine ⟨_, _, exec_sts_memory r h, exec_lds_memory d h, ?_, fun j hj => ?_, fun n _ => rfl, ?_, fun a ha => ?_⟩
  · simp [ramByte_setRam_write]
  · have hjd : j ≠ d := by simpa using hj
    simp [hjd]
  · simp [BitVec.add_assoc]
  · simp [ramByte_setRam_write, ha]

/-! ### Device locations -/

section
variable {s : State} {a : Word}

/-- A load from a device location is a read that the platform answers and sees. -/
theorem loadByte_device (h : region s.par a = .device) : loadByte a s = .ok (deviceRead a s) := by
  simp only [loadByte, h]

/-- A store to a device location is a write that the platform sees. -/
theorem storeByte_device (v : Byte) (h : region s.par a = .device) :
    storeByte a v s = .ok (s.record (.devWrite a v)) := by
  simp only [storeByte, h]

/-- A bit of a device location changed: the platform sees one read, then one write. -/
theorem changeIoBit_device (b : BitNo) (on : Bool) (h : region s.par a = .device) :
    changeIoBit a b on s = .next { s with
      devIn := s.devIn.tail
      trace := .devWrite a (putBit (deviceAnswer a s) b on) :: .devRead a (deviceAnswer a s) :: s.trace
      pc := s.pc + 1
      cycles := s.cycles + 2 } := by
  have hu : region (deviceRead a s).2.par a = .device := h
  simp only [changeIoBit, loadByte_device h, storeByte_device _ hu, Except.map, settle_ok]
  rfl

end

/-- Settles O56. -/
theorem ioBitsReadModifyWrite : Obligations.IoBitsReadModifyWrite := by
  intro a b s i on hm
  have hdev : region s.par (ioBitAddr a) = .device := region_ioBitAddr s.par a
  have hi : exec i s = changeIoBit (ioBitAddr a) b on s := by
    fin_cases hm
    all_goals rfl
  exact ⟨_, putBit (deviceAnswer (ioBitAddr a) s) b on, rfl, fun n => bitOf_putBit _ b n on,
    hi.trans (changeIoBit_device b on hdev)⟩

end Sys2Proof.Proofs.DataAccess
end

section
/-! PROOF. Program memory as LPM and ELPM read it (spec/20_memory.md R62, R73; spec/43_data_transfer.md R217, R245 to
R250): the byte of a word, what is read beyond the end, and the address after an increment. -/

namespace Sys2Proof.Proofs.ProgramMemory

open Sys2Proof.Machine Sys2Proof.Laws

/-! ### Bytes of program memory -/

section
variable {s : State} {a : Nat} {d : Reg} {v : Byte}

/-- The byte at `a` is the low or the high byte of the word at `a / 2`. -/
theorem progByte_of_progWord {w : Word} (hw : s.progWord (BitVec.ofNat 16 (a / 2)) = some w) (ha : a / 2 < 65536) :
    s.progByte a = some (if a % 2 = 0 then lowByte w else highByte w) := by
  have hn : (BitVec.ofNat 16 (a / 2)).toNat = a / 2 := Nat.mod_eq_of_lt ha
  simp only [State.progWord, hn, Option.ite_none_right_eq_some, Option.some.injEq] at hw
  obtain ⟨hin, rfl⟩ := hw
  rw [State.progByte, if_pos (by omega), lowByte_joinBytes, highByte_joinBytes]
  congr 1
  split
  · congr 1; omega
  · congr 1; omega

theorem progByte_outside (h : s.par.flashWords ≤ a / 2) : s.progByte a = none := by
  rw [State.progByte, if_neg (by omega)]

/-! ### Without increment -/

/-- Registers written, then the move of pc. -/
theorem advance_only_regs {ds : List Reg} {regs : Vector Byte 32} (len cyc : Nat)
    (h : KeepsRegs ds s { s with regs := regs }) :
    OnlyRegsFlags ds [] len cyc s (State.advance len cyc { s with regs := regs }) where
  regs := h
  flags _ _ := rfl
  memory _ := rfl
  control := ⟨rfl, rfl, rfl, rfl⟩
  platform := ⟨fun _ => rfl, rfl, rfl, rfl, rfl, rfl, rfl, rfl⟩
  pc := by simp
  cycles := rfl

theorem setReg_keepsRegs : KeepsRegs [d] s (s.setReg d v) :=
  fun j hj => reg_setReg_ne d j v s (by simpa using hj)

theorem loadProg_ok (h : s.progByte a = some v) :
    ∃ t, loadProg d a s = .next t ∧ OnlyRegsFlags [d] [] 1 3 s t ∧ t.reg d = v :=
  ⟨(s.setReg d v).advance 1 3, by rw [loadProg, h], advance_only_regs 1 3 setReg_keepsRegs,
    reg_setReg_self d v s⟩

theorem loadProg_stuck (h : s.progByte a = none) : loadProg d a s = .fault (.unmappedProgram a) := by
  simp only [loadProg, h]

end

/-- Settles O48. -/
theorem programByteLoads : Obligations.ProgramByteLoads := by
  intro d s i e a hm
  have hi : exec i s = loadProg e a s := by
    fin_cases hm
    all_goals rfl
  rw [hi]
  exact ⟨fun w hw ha => loadProg_ok (progByte_of_progWord hw ha), fun h => loadProg_stuck (progByte_outside h)⟩

/-! ### With increment -/

section
variable {s : State} {d : Reg} {v : Byte} {w : Word}

theorem isHalf_z_false (h : d ≠ 30) (h' : d ≠ 31) : isHalf .z d = false := by
  simp [isHalf, Ptr.lo, Ptr.hi, h, h']

theorem isHalf_z_true (h : d = 30 ∨ d = 31) : isHalf .z d = true := by
  simpa [isHalf, Ptr.lo, Ptr.hi] using h

/-- Into a register outside Z: the byte and the new Z. -/
theorem progLoadedInto_outside (h : d ≠ 30) (h' : d ≠ 31) :
    progLoadedInto d v w s = (s.setReg d v).setPtr .z w := by
  simp only [progLoadedInto, isHalf_z_false h h', Bool.false_eq_true, if_false]

/-- Into a half of Z: two free values (U6). -/
theorem progLoadedInto_half (h : d = 30 ∨ d = 31) : progLoadedInto d v w s = s.freePtr .z := by
  simp only [progLoadedInto, isHalf_z_true h, if_true]

theorem setReg_setPtr_z_keepsRegs : KeepsRegs [d, 30, 31] s ((s.setReg d v).setPtr .z w) := by
  intro j hj
  obtain ⟨hd, hlo, hhi⟩ : j ≠ d ∧ j ≠ 30 ∧ j ≠ 31 := by simpa using hj
  simp [reg_setPtr, Ptr.lo, Ptr.hi, hd, hlo, hhi]

theorem lpmIncrement_ok (h : s.progByte (lpmAddr s) = some v) :
    lpmIncrement d s = .next ((progLoadedInto d v (s.ptr .z + 1) s).advance 1 3) := by
  rw [lpmIncrement, h]

theorem lpmIncrement_stuck (h : s.progByte (lpmAddr s) = none) :
    lpmIncrement d s = .fault (.unmappedProgram (lpmAddr s)) := by
  rw [lpmIncrement, h]

theorem elpmIncrement_ok (h : s.progByte (elpmAddr s) = some v) :
    elpmIncrement d s = .next (((progLoadedInto d v (BitVec.ofNat 16 (elpmNext s)) s).setRampz
      (BitVec.ofNat 8 (elpmNext s / 65536))).advance 1 3) := by
  rw [elpmIncrement, h]

theorem elpmIncrement_stuck (h : s.progByte (elpmAddr s) = none) :
    elpmIncrement d s = .fault (.unmappedProgram (elpmAddr s)) := by
  rw [elpmIncrement, h]

/-- With no unimplemented bit in RAMPZ, the address is RAMPZ above Z. -/
theorem elpmAddr_implemented (h : s.rampz &&& rampzMask s.par = s.rampz) :
    elpmAddr s = s.rampz.toNat * 65536 + (s.ptr .z).toNat := by
  rw [elpmAddr, h]

theorem lowByte_ofNat (z : Nat) : lowByte (BitVec.ofNat 16 z) = BitVec.ofNat 8 z := by
  apply BitVec.eq_of_toNat_eq
  simp only [lowByte_toNat, BitVec.toNat_ofNat]
  omega

theorem highByte_ofNat (z : Nat) : highByte (BitVec.ofNat 16 z) = BitVec.ofNat 8 (z / 256) := by
  apply BitVec.eq_of_toNat_eq
  simp only [highByte_toNat, BitVec.toNat_ofNat]
  omega

/-- Z after an address was written to it: bits 7:0 and 15:8 of the address. -/
theorem setPtr_z_ofNat (z : Nat) : s.setPtr .z (BitVec.ofNat 16 z) =
    { s with regs := (s.regs.set 30 (BitVec.ofNat 8 z)).set 31 (BitVec.ofNat 8 (z / 256)) } := by
  rw [State.setPtr, lowByte_ofNat, highByte_ofNat]
  rfl

end

/-- Settles O49: LPM, ELPM, and the fault of both. -/
theorem programLoadsIncrement : Obligations.ProgramLoadsIncrement := by
  intro d s
  have hlpm : exec (.lpmInc d) s = lpmIncrement d s := rfl
  have helpm : exec (.elpmInc d) s = elpmIncrement d s := rfl
  rw [hlpm, helpm]
  refine ⟨fun v hv => ?lpm, fun v z _ hz hv hzn => ?elpm, fun i a hm h => ?outside⟩
  case lpm =>
    rw [lpmIncrement_ok hv]
    refine ⟨fun h h' => ?_, fun h => ?_⟩
    · rw [progLoadedInto_outside h h']
      refine ⟨_, rfl, advance_only_regs 1 3 setReg_setPtr_z_keepsRegs, ?_, ?_⟩
      · simp [reg_setPtr, Ptr.lo, Ptr.hi, h, h']
      · simp
    · rw [progLoadedInto_half h]
      exact ⟨_, _, rfl⟩
  case elpm =>
    have hnext : elpmNext s = z := by rw [elpmNext, elpmAddr_implemented hz, hzn]
    rw [elpmIncrement_ok (by rw [elpmAddr_implemented hz, hv]), hnext]
    refine ⟨fun h h' => ?_, fun h => ?_⟩
    · rw [progLoadedInto_outside h h', setPtr_z_ofNat]
      rfl
    · rw [progLoadedInto_half h]
      exact ⟨_, _, rfl⟩
  case outside =>
    fin_cases hm
    · exact hlpm.trans (lpmIncrement_stuck (progByte_outside h))
    · exact helpm.trans (elpmIncrement_stuck (progByte_outside h))

end Sys2Proof.Proofs.ProgramMemory
end

section
/-! PROOF. Program memory as the fetch and the skips read it (spec/20_memory.md R73, spec/41_branch.md R161): beyond its
end there is no word, so nothing to run and nothing to skip. -/

namespace Sys2Proof.Proofs.Fetch

open Sys2Proof.Machine Sys2Proof.Laws Sys2Proof.Proofs.DataAccess

/-! ### First and second words -/

/-- The first word of a two-word instruction selects the row of JMP, CALL, LDS or STS. -/
theorem find_row_of_isTwoWord {w : Word} (h : isTwoWord w = true) :
    ∃ r, opcodeTable.find? (fun r => r.selects w) = some r := by
  suffices hrow : ∃ r ∈ opcodeTable, r.selects w = true from Option.isSome_iff_exists.1 (List.find?_isSome.2 hrow)
  simp only [isTwoWord, Bool.or_eq_true] at h
  obtain ((h | h) | h) | h := h
  · exact ⟨⟨0xFE0E, 0x940C, fun w k => .jmp (fieldK22 w k)⟩, by simp [opcodeTable, rowsBranch], h⟩
  · exact ⟨⟨0xFE0E, 0x940E, fun w k => .call (fieldK22 w k)⟩, by simp [opcodeTable, rowsBranch], h⟩
  · exact ⟨⟨0xFE0F, 0x9000, fun w k => .lds (fieldD5 w) k⟩, by simp [opcodeTable, rowsTransfer], h⟩
  · exact ⟨⟨0xFE0F, 0x9200, fun w k => .sts k (fieldD5 w)⟩, by simp [opcodeTable, rowsTransfer], h⟩

/-- A two-word instruction's first word does not decode alone. -/
theorem decode_first_alone {w : Word} (h : isTwoWord w = true) : decode [w] = .error (.noSecondWord w) := by
  obtain ⟨r, hr⟩ := find_row_of_isTwoWord h
  simp only [decode, hr, h, if_true]

section
variable {s : State}

theorem progWord_outside {w : Word} (h : s.par.flashWords ≤ w.toNat) : s.progWord w = none := by
  rw [State.progWord, if_neg (by omega)]

theorem runInstr_no_word (h : s.progWord s.pc = none) :
    runInstr s = .fault (.unmappedProgram (2 * s.pc.toNat)) := by
  simp only [runInstr, fetchWords, h, decode]

theorem runInstr_no_second_word {w : Word} (hw : s.progWord s.pc = some w) (h2 : isTwoWord w = true)
    (h : s.progWord (s.pc + 1) = none) : runInstr s = .fault (.unmappedProgram (2 * (s.pc + 1).toNat)) := by
  simp only [runInstr, fetchWords, hw, h, decode_first_alone h2]

/-! ### Skips -/

/-- A skip on a device location reads it, then skips. -/
theorem skipIo_device {a : Word} (b : BitNo) (want : Bool) (h : region s.par a = .device) :
    skipIo a b want s = skip (bitOf (deviceAnswer a s) b == want) (deviceRead a s).2 := by
  simp only [skipIo, loadByte_device h]
  rfl

end

/-- Settles O16: the fetch, then each of the five skips as `skip` on its condition. -/
theorem fetchOutsideProgramStuck : Obligations.FetchOutsideProgramStuck := by
  refine ⟨fun s hs => ⟨fun h => ?_, fun w hw h2 h => ?_⟩, fun s d r a b v u i taken w hv hu hm h => ?_⟩
  · rw [step_runs s hs, runInstr_no_word (by simpa using progWord_outside h), sample_pc]
  · rw [step_runs s hs, runInstr_no_second_word (by simpa using hw) h2 (by simpa using progWord_outside h), sample_pc]
  · subst hv hu
    have hdev : region s.par (ioBitAddr a) = .device := region_ioBitAddr s.par a
    have hskip : exec i s = skip taken w ∧ w.par = s.par ∧ w.pc = s.pc ∧ w.cycles = s.cycles := by
      fin_cases hm
      · exact ⟨rfl, rfl, rfl, rfl⟩
      · exact ⟨congrArg (skip · s) (beq_false _), rfl, rfl, rfl⟩
      · exact ⟨congrArg (skip · s) (beq_true _), rfl, rfl, rfl⟩
      · exact ⟨(skipIo_device b false hdev).trans (congrArg (skip · _) (beq_false _)), rfl, rfl, rfl⟩
      · exact ⟨(skipIo_device b true hdev).trans (congrArg (skip · _) (beq_true _)), rfl, rfl, rfl⟩
    obtain ⟨hexec, hpar, hpc, hcycles⟩ := hskip
    rw [hexec, ← hpc, ← hcycles]
    exact skip_outside taken w (by rw [hpar, hpc]; exact h)

end Sys2Proof.Proofs.Fetch
end

section
/-! PROOF. Instruction words as numbers (spec/30_encoding.md R91, R92): what a mask keeps, each field and each format of the
encoder by their binary digits, so that words, fields and operands compare by arithmetic. -/

namespace Sys2Proof.Proofs.Encoding

open Sys2Proof.Machine

/-! ### Slices and masks -/

theorem toNat_append {m n : Nat} (x : BitVec m) (y : BitVec n) : (x ++ y).toNat = x.toNat * 2 ^ n + y.toNat := by
  rw [BitVec.toNat_append, ← Nat.shiftLeft_add_eq_or_of_lt y.isLt, Nat.shiftLeft_eq]

theorem toNat_slice {n : Nat} (x : BitVec n) (s l : Nat) : (x.extractLsb' s l).toNat = x.toNat / 2 ^ s % 2 ^ l := by
  rw [BitVec.extractLsb'_toNat, Nat.shiftRight_eq_div_pow]

theorem and_split (k a b : Nat) : a &&& b = (a / 2 ^ k &&& b / 2 ^ k) * 2 ^ k + (a % 2 ^ k &&& b % 2 ^ k) := by
  rw [← Nat.and_div_two_pow, ← Nat.and_mod_two_pow, Nat.div_add_mod']

/-- A mask that ends in `k` zeros drops that many digits. -/
theorem and_drop (k : Nat) {a m : Nat} (h : m % 2 ^ k = 0) : a &&& m = (a / 2 ^ k &&& m / 2 ^ k) * 2 ^ k := by
  rw [and_split k, h, Nat.and_zero, Nat.add_zero]

/-- A mask that ends in `k` ones keeps that many digits. -/
theorem and_keep (k : Nat) {a m : Nat} (h : m % 2 ^ k = 2 ^ k - 1) :
    a &&& m = (a / 2 ^ k &&& m / 2 ^ k) * 2 ^ k + a % 2 ^ k := by
  rw [and_split k, h, Nat.and_two_pow_sub_one_eq_mod, Nat.mod_mod]

/-! ### The masks of the opcode table -/

theorem toNat_and_F000 (w : Word) : (w &&& 0xF000).toNat = w.toNat / 4096 * 4096 := by
  rw [BitVec.toNat_and, and_drop 12 rfl, and_keep 4 rfl]
  simp
  omega

theorem toNat_and_F800 (w : Word) : (w &&& 0xF800).toNat = w.toNat / 2048 * 2048 := by
  rw [BitVec.toNat_and, and_drop 11 rfl, and_keep 5 rfl]
  simp
  omega

theorem toNat_and_FC00 (w : Word) : (w &&& 0xFC00).toNat = w.toNat / 1024 * 1024 := by
  rw [BitVec.toNat_and, and_drop 10 rfl, and_keep 6 rfl]
  simp
  omega

theorem toNat_and_FF00 (w : Word) : (w &&& 0xFF00).toNat = w.toNat / 256 * 256 := by
  rw [BitVec.toNat_and, and_drop 8 rfl, and_keep 8 rfl]
  simp
  omega

theorem toNat_and_FE08 (w : Word) : (w &&& 0xFE08).toNat = w.toNat / 512 * 512 + w.toNat / 8 % 2 * 8 := by
  rw [BitVec.toNat_and, and_drop 3 rfl, and_keep 1 rfl, and_drop 5 rfl, and_keep 7 rfl]
  simp
  omega

theorem toNat_and_FE0E (w : Word) : (w &&& 0xFE0E).toNat = w.toNat / 512 * 512 + w.toNat / 2 % 8 * 2 := by
  rw [BitVec.toNat_and, and_drop 1 rfl, and_keep 3 rfl, and_drop 5 rfl, and_keep 7 rfl]
  simp
  omega

theorem toNat_and_FE0F (w : Word) : (w &&& 0xFE0F).toNat = w.toNat / 512 * 512 + w.toNat % 16 := by
  rw [BitVec.toNat_and, and_keep 4 rfl, and_drop 5 rfl, and_keep 7 rfl]
  simp
  omega

theorem toNat_and_FF88 (w : Word) : (w &&& 0xFF88).toNat = w.toNat / 128 * 128 + w.toNat / 8 % 2 * 8 := by
  rw [BitVec.toNat_and, and_drop 3 rfl, and_keep 1 rfl, and_drop 3 rfl, and_keep 9 rfl]
  simp
  omega

theorem toNat_and_FF8F (w : Word) : (w &&& 0xFF8F).toNat = w.toNat / 128 * 128 + w.toNat % 16 := by
  rw [BitVec.toNat_and, and_keep 4 rfl, and_drop 3 rfl, and_keep 9 rfl]
  simp
  omega

theorem toNat_and_D208 (w : Word) : (w &&& 0xD208).toNat =
    w.toNat / 16384 * 16384 + w.toNat / 4096 % 2 * 4096 + w.toNat / 512 % 2 * 512 + w.toNat / 8 % 2 * 8 := by
  rw [BitVec.toNat_and, and_drop 3 rfl, and_keep 1 rfl, and_drop 5 rfl, and_keep 1 rfl, and_drop 2 rfl, and_keep 1 rfl,
    and_drop 1 rfl, and_keep 2 rfl]
  simp
  omega

theorem and_FFFF (w : Word) : w &&& 0xFFFF = w := BitVec.and_allOnes

/-! ### The fields of a word -/

section
variable (w k : Word)

theorem fieldD5_val : (fieldD5 w).val = w.toNat / 16 % 32 := by
  simp only [fieldD5, BitVec.val_toFin, toNat_slice]
  omega

theorem fieldR5_val : (fieldR5 w).val = w.toNat / 512 % 2 * 16 + w.toNat % 16 := by
  simp only [fieldR5, BitVec.val_toFin, toNat_append, toNat_slice]
  omega

theorem fieldD4_val : (fieldD4 w).val = 16 + w.toNat / 16 % 16 := by
  simp only [fieldD4, BitVec.val_toFin, toNat_append, toNat_slice, BitVec.toNat_ofNat]
  omega

theorem fieldR4_val : (fieldR4 w).val = 16 + w.toNat % 16 := by
  simp only [fieldR4, BitVec.val_toFin, toNat_append, toNat_slice, BitVec.toNat_ofNat]
  omega

theorem fieldD3_val : (fieldD3 w).val = 16 + w.toNat / 16 % 8 := by
  simp only [fieldD3, BitVec.val_toFin, toNat_append, toNat_slice, BitVec.toNat_ofNat]
  omega

theorem fieldR3_val : (fieldR3 w).val = 16 + w.toNat % 8 := by
  simp only [fieldR3, BitVec.val_toFin, toNat_append, toNat_slice, BitVec.toNat_ofNat]
  omega

theorem fieldPair_val : (fieldPair w).val = 24 + w.toNat / 16 % 4 * 2 := by
  simp only [fieldPair, BitVec.val_toFin, toNat_append, toNat_slice, BitVec.toNat_ofNat]
  omega

theorem fieldEvenD_val : (fieldEvenD w).val = w.toNat / 16 % 16 * 2 := by
  simp only [fieldEvenD, BitVec.val_toFin, toNat_append, toNat_slice, BitVec.toNat_ofNat]
  omega

theorem fieldEvenR_val : (fieldEvenR w).val = w.toNat % 16 * 2 := by
  simp only [fieldEvenR, BitVec.val_toFin, toNat_append, toNat_slice, BitVec.toNat_ofNat]
  omega

theorem fieldK8_toNat : (fieldK8 w).toNat = w.toNat / 256 % 16 * 16 + w.toNat % 16 := by
  simp only [fieldK8, toNat_append, toNat_slice]
  omega

theorem fieldK6_toNat : (fieldK6 w).toNat = w.toNat / 64 % 4 * 16 + w.toNat % 16 := by
  simp only [fieldK6, toNat_append, toNat_slice]
  omega

theorem fieldK12_toNat : (fieldK12 w).toNat = w.toNat % 4096 := by
  simp only [fieldK12, toNat_slice]
  omega

theorem fieldK7_toNat : (fieldK7 w).toNat = w.toNat / 8 % 128 := by
  simp only [fieldK7, toNat_slice]
  omega

theorem fieldQ_toNat : (fieldQ w).toNat = (w.toNat / 8192 % 2 * 4 + w.toNat / 1024 % 4) * 8 + w.toNat % 8 := by
  simp only [fieldQ, toNat_append, toNat_slice]
  omega

theorem fieldB_val : (fieldB w).val = w.toNat % 8 := by
  simp only [fieldB, BitVec.val_toFin, toNat_slice]
  omega

theorem fieldS_val : (fieldS w).val = w.toNat / 16 % 8 := by
  simp only [fieldS, BitVec.val_toFin, toNat_slice]
  omega

theorem fieldA6_toNat : (fieldA6 w).toNat = w.toNat / 512 % 4 * 16 + w.toNat % 16 := by
  simp only [fieldA6, toNat_append, toNat_slice]
  omega

theorem fieldA5_toNat : (fieldA5 w).toNat = w.toNat / 8 % 32 := by
  simp only [fieldA5, toNat_slice]
  omega

theorem fieldK22_toNat : (fieldK22 w k).toNat = (w.toNat / 16 % 32 * 2 + w.toNat % 2) * 65536 + k.toNat := by
  simp only [fieldK22, toNat_append, toNat_slice]
  omega

end
end Sys2Proof.Proofs.Encoding
end

section
/-! PROOF. The formats of the encoder (spec/30_encoding.md R93 to R106). Of each: the word as a number; the mask of its rows
leaves of it the format's constants, which are the word for zero operands, and the fields read the operands back
(`_read`); and a word with those constants is the encoding of its fields (`_fields`). -/

namespace Sys2Proof.Proofs.Encoding

open Sys2Proof.Machine

theorem regBits_toNat (d : Reg) : (regBits d).toNat = d.val := rfl

theorem bitBits_toNat (b : BitNo) : (bitBits b).toNat = b.val := rfl

/-! ### Which registers a field names -/

theorem isUpper_iff {d : Reg} : isUpper d = true ↔ 16 ≤ d.val := by simp [isUpper]

theorem isMul3_iff {d : Reg} : isMul3 d = true ↔ 16 ≤ d.val ∧ d.val ≤ 23 := by simp [isMul3]

theorem isPairLow_iff {d : Reg} : isPairLow d = true ↔ 24 ≤ d.val ∧ d.val % 2 = 0 := by simp [isPairLow]

theorem isEven_iff {d : Reg} : isEven d = true ↔ d.val % 2 = 0 := by simp [isEven]

section
variable (w : Word)

theorem isUpper_fieldD4 : isUpper (fieldD4 w) = true := by
  rw [isUpper_iff, fieldD4_val]
  omega

theorem isUpper_fieldR4 : isUpper (fieldR4 w) = true := by
  rw [isUpper_iff, fieldR4_val]
  omega

theorem isMul3_fieldD3 : isMul3 (fieldD3 w) = true := by
  rw [isMul3_iff, fieldD3_val]
  omega

theorem isMul3_fieldR3 : isMul3 (fieldR3 w) = true := by
  rw [isMul3_iff, fieldR3_val]
  omega

theorem isPairLow_fieldPair : isPairLow (fieldPair w) = true := by
  rw [isPairLow_iff, fieldPair_val]
  omega

theorem isEven_fieldEvenD : isEven (fieldEvenD w) = true := by
  rw [isEven_iff, fieldEvenD_val]
  omega

theorem isEven_fieldEvenR : isEven (fieldEvenR w) = true := by
  rw [isEven_iff, fieldEvenR_val]
  omega

end

/-! ### Two registers (R93, R97) -/

theorem encRdRr_toNat (op : BitVec 6) (d r : Reg) :
    (encRdRr op d r).toNat = ((op.toNat * 2 + r / 16 % 2) * 32 + d) * 16 + r % 16 := by
  simp only [encRdRr, toNat_append, toNat_slice, regBits_toNat]
  omega

theorem encRdRr_read (op : BitVec 6) (d r : Reg) : encRdRr op d r &&& 0xFC00 = encRdRr op 0 0 ∧
    fieldD5 (encRdRr op d r) = d ∧ fieldR5 (encRdRr op d r) = r := by
  refine ⟨BitVec.eq_of_toNat_eq ?_, Fin.ext ?_, Fin.ext ?_⟩ <;>
    simp only [toNat_and_FC00, fieldD5_val, fieldR5_val, encRdRr_toNat] <;> omega

theorem encRdRr_fields {op : BitVec 6} {w : Word} (h : w &&& 0xFC00 = encRdRr op 0 0) :
    encRdRr op (fieldD5 w) (fieldR5 w) = w := by
  apply BitVec.eq_of_toNat_eq
  replace h := congrArg BitVec.toNat h
  simp only [toNat_and_FC00, fieldD5_val, fieldR5_val, encRdRr_toNat] at h ⊢
  omega

theorem encMovW_toNat (d r : Reg) : (encMovW d r).toNat = (1 * 16 + d / 2 % 16) * 16 + r / 2 % 16 := by
  simp only [encMovW, toNat_append, toNat_slice, regBits_toNat, BitVec.toNat_ofNat]
  omega

theorem encMovW_read {d r : Reg} (hd : isEven d = true) (hr : isEven r = true) :
    encMovW d r &&& 0xFF00 = encMovW 0 0 ∧
    fieldEvenD (encMovW d r) = d ∧ fieldEvenR (encMovW d r) = r := by
  rw [isEven_iff] at hd hr
  refine ⟨BitVec.eq_of_toNat_eq ?_, Fin.ext ?_, Fin.ext ?_⟩ <;>
    simp only [toNat_and_FF00, fieldEvenD_val, fieldEvenR_val, encMovW_toNat] <;> omega

theorem encMovW_fields {w : Word} (h : w &&& 0xFF00 = encMovW 0 0) : encMovW (fieldEvenD w) (fieldEvenR w) = w := by
  apply BitVec.eq_of_toNat_eq
  replace h := congrArg BitVec.toNat h
  simp only [toNat_and_FF00, fieldEvenD_val, fieldEvenR_val, encMovW_toNat] at h ⊢
  omega

theorem encMul4_toNat (d r : Reg) : (encMul4 d r).toNat = (2 * 16 + d % 16) * 16 + r % 16 := by
  simp only [encMul4, toNat_append, toNat_slice, regBits_toNat, BitVec.toNat_ofNat]
  omega

theorem encMul4_read {d r : Reg} (hd : isUpper d = true) (hr : isUpper r = true) :
    encMul4 d r &&& 0xFF00 = encMul4 0 0 ∧
    fieldD4 (encMul4 d r) = d ∧ fieldR4 (encMul4 d r) = r := by
  rw [isUpper_iff] at hd hr
  refine ⟨BitVec.eq_of_toNat_eq ?_, Fin.ext ?_, Fin.ext ?_⟩ <;>
    simp only [toNat_and_FF00, fieldD4_val, fieldR4_val, encMul4_toNat] <;> omega

theorem encMul4_fields {w : Word} (h : w &&& 0xFF00 = encMul4 0 0) : encMul4 (fieldD4 w) (fieldR4 w) = w := by
  apply BitVec.eq_of_toNat_eq
  replace h := congrArg BitVec.toNat h
  simp only [toNat_and_FF00, fieldD4_val, fieldR4_val, encMul4_toNat] at h ⊢
  omega

theorem encMul3_toNat (u v : BitVec 1) (d r : Reg) :
    (encMul3 u v d r).toNat = (((3 * 2 + u.toNat) * 8 + d % 8) * 2 + v.toNat) * 8 + r % 8 := by
  simp only [encMul3, toNat_append, toNat_slice, regBits_toNat, BitVec.toNat_ofNat]
  omega

theorem encMul3_read {u v : BitVec 1} {d r : Reg} (hd : isMul3 d = true) (hr : isMul3 r = true) :
    encMul3 u v d r &&& 0xFF88 = encMul3 u v 0 0 ∧
    fieldD3 (encMul3 u v d r) = d ∧ fieldR3 (encMul3 u v d r) = r := by
  rw [isMul3_iff] at hd hr
  refine ⟨BitVec.eq_of_toNat_eq ?_, Fin.ext ?_, Fin.ext ?_⟩ <;>
    simp only [toNat_and_FF88, fieldD3_val, fieldR3_val, encMul3_toNat] <;> omega

theorem encMul3_fields {u v : BitVec 1} {w : Word} (h : w &&& 0xFF88 = encMul3 u v 0 0) :
    encMul3 u v (fieldD3 w) (fieldR3 w) = w := by
  apply BitVec.eq_of_toNat_eq
  replace h := congrArg BitVec.toNat h
  simp only [toNat_and_FF88, fieldD3_val, fieldR3_val, encMul3_toNat] at h ⊢
  omega

/-! ### A register and a constant (R94, R96) -/

theorem encRdK_toNat (op : BitVec 4) (d : Reg) (k : Byte) :
    (encRdK op d k).toNat = ((op.toNat * 16 + k.toNat / 16 % 16) * 16 + d % 16) * 16 + k.toNat % 16 := by
  simp only [encRdK, toNat_append, toNat_slice, regBits_toNat]
  omega

theorem encRdK_read {op : BitVec 4} {d : Reg} {k : Byte} (hd : isUpper d = true) :
    encRdK op d k &&& 0xF000 = encRdK op 0 0#8 ∧
    fieldD4 (encRdK op d k) = d ∧ fieldK8 (encRdK op d k) = k := by
  rw [isUpper_iff] at hd
  refine ⟨BitVec.eq_of_toNat_eq ?_, Fin.ext ?_, BitVec.eq_of_toNat_eq ?_⟩ <;>
    simp only [toNat_and_F000, fieldD4_val, fieldK8_toNat, encRdK_toNat, BitVec.toNat_ofNat] <;> omega

theorem encRdK_fields {op : BitVec 4} {w : Word} (h : w &&& 0xF000 = encRdK op 0 0#8) :
    encRdK op (fieldD4 w) (fieldK8 w) = w := by
  apply BitVec.eq_of_toNat_eq
  replace h := congrArg BitVec.toNat h
  simp only [toNat_and_F000, fieldD4_val, fieldK8_toNat, encRdK_toNat, BitVec.toNat_ofNat] at h ⊢
  omega

theorem encWK_toNat (o : BitVec 1) (d : Reg) (k : BitVec 6) :
    (encWK o d k).toNat = (((75 * 2 + o.toNat) * 4 + k.toNat / 16 % 4) * 4 + d / 2 % 4) * 16 + k.toNat % 16 := by
  simp only [encWK, toNat_append, toNat_slice, regBits_toNat, BitVec.toNat_ofNat]
  omega

theorem encWK_read {o : BitVec 1} {d : Reg} {k : BitVec 6} (hd : isPairLow d = true) :
    encWK o d k &&& 0xFF00 = encWK o 0 0#6 ∧
    fieldPair (encWK o d k) = d ∧ fieldK6 (encWK o d k) = k := by
  rw [isPairLow_iff] at hd
  refine ⟨BitVec.eq_of_toNat_eq ?_, Fin.ext ?_, BitVec.eq_of_toNat_eq ?_⟩ <;>
    simp only [toNat_and_FF00, fieldPair_val, fieldK6_toNat, encWK_toNat, BitVec.toNat_ofNat] <;> omega

theorem encWK_fields {o : BitVec 1} {w : Word} (h : w &&& 0xFF00 = encWK o 0 0#6) :
    encWK o (fieldPair w) (fieldK6 w) = w := by
  apply BitVec.eq_of_toNat_eq
  replace h := congrArg BitVec.toNat h
  simp only [toNat_and_FF00, fieldPair_val, fieldK6_toNat, encWK_toNat, BitVec.toNat_ofNat] at h ⊢
  omega

/-! ### One register (R95, R105) -/

theorem encRd_toNat (d : Reg) (op : BitVec 4) : (encRd d op).toNat = (74 * 32 + d) * 16 + op.toNat := by
  simp only [encRd, toNat_append, regBits_toNat, BitVec.toNat_ofNat]
  omega

theorem encRd_read (d : Reg) (op : BitVec 4) : encRd d op &&& 0xFE0F = encRd 0 op ∧
    fieldD5 (encRd d op) = d := by
  refine ⟨BitVec.eq_of_toNat_eq ?_, Fin.ext ?_⟩ <;>
    simp only [toNat_and_FE0F, fieldD5_val, encRd_toNat] <;> omega

theorem encRd_fields {op : BitVec 4} {w : Word} (h : w &&& 0xFE0F = encRd 0 op) : encRd (fieldD5 w) op = w := by
  apply BitVec.eq_of_toNat_eq
  replace h := congrArg BitVec.toNat h
  simp only [toNat_and_FE0F, fieldD5_val, encRd_toNat] at h ⊢
  omega

theorem encLdSt_toNat (s : BitVec 1) (d : Reg) (mode : BitVec 4) :
    (encLdSt s d mode).toNat = ((36 * 2 + s.toNat) * 32 + d) * 16 + mode.toNat := by
  simp only [encLdSt, toNat_append, regBits_toNat, BitVec.toNat_ofNat]
  omega

theorem encLdSt_read (s : BitVec 1) (d : Reg) (mode : BitVec 4) : encLdSt s d mode &&& 0xFE0F = encLdSt s 0 mode ∧
    fieldD5 (encLdSt s d mode) = d := by
  refine ⟨BitVec.eq_of_toNat_eq ?_, Fin.ext ?_⟩ <;>
    simp only [toNat_and_FE0F, fieldD5_val, encLdSt_toNat] <;> omega

theorem encLdSt_fields {s : BitVec 1} {mode : BitVec 4} {w : Word} (h : w &&& 0xFE0F = encLdSt s 0 mode) :
    encLdSt s (fieldD5 w) mode = w := by
  apply BitVec.eq_of_toNat_eq
  replace h := congrArg BitVec.toNat h
  simp only [toNat_and_FE0F, fieldD5_val, encLdSt_toNat] at h ⊢
  omega

/-! ### A register and an I/O location (R103) -/

theorem encIO_toNat (o : BitVec 1) (a : BitVec 6) (d : Reg) :
    (encIO o a d).toNat = (((11 * 2 + o.toNat) * 4 + a.toNat / 16 % 4) * 32 + d) * 16 + a.toNat % 16 := by
  simp only [encIO, toNat_append, toNat_slice, regBits_toNat, BitVec.toNat_ofNat]
  omega

theorem encIO_read (o : BitVec 1) (a : BitVec 6) (d : Reg) : encIO o a d &&& 0xF800 = encIO o 0#6 0 ∧
    fieldA6 (encIO o a d) = a ∧ fieldD5 (encIO o a d) = d := by
  refine ⟨BitVec.eq_of_toNat_eq ?_, BitVec.eq_of_toNat_eq ?_, Fin.ext ?_⟩ <;>
    simp only [toNat_and_F800, fieldA6_toNat, fieldD5_val, encIO_toNat, BitVec.toNat_ofNat] <;> omega

theorem encIO_fields {o : BitVec 1} {w : Word} (h : w &&& 0xF800 = encIO o 0#6 0) :
    encIO o (fieldA6 w) (fieldD5 w) = w := by
  apply BitVec.eq_of_toNat_eq
  replace h := congrArg BitVec.toNat h
  simp only [toNat_and_F800, fieldA6_toNat, fieldD5_val, encIO_toNat, BitVec.toNat_ofNat] at h ⊢
  omega

/-! ### A register and a displacement (R104) -/

/-- A displacement's word has seven digits below its opcode. Where they stand is stated of variables, since the arithmetic
procedure does not see through the nested quotients of the fields themselves. -/
theorem dispDigits {o a z b s d y c n : Nat} (ha : a < 2) (hz : z < 2) (hb : b < 4) (hs : s < 2) (hd : d < 32) (hy : y < 2)
    (hc : c < 8) (hn : n = ((((((o * 2 + a) * 2 + z) * 4 + b) * 2 + s) * 32 + d) * 2 + y) * 8 + c) :
    n / 16384 = o ∧ n / 8192 % 2 = a ∧ n / 4096 % 2 = z ∧ n / 1024 % 4 = b ∧ n / 512 % 2 = s ∧ n / 16 % 32 = d ∧
      n / 8 % 2 = y ∧ n % 8 = c := by
  refine ⟨?_, ?_, ?_, ?_, ?_, ?_, ?_, ?_⟩ <;> omega

theorem eq_dispDigits (n : Nat) : n = ((((((n / 16384 * 2 + n / 8192 % 2) * 2 + n / 4096 % 2) * 4 + n / 1024 % 4) * 2 +
    n / 512 % 2) * 32 + n / 16 % 32) * 2 + n / 8 % 2) * 8 + n % 8 := by
  omega

theorem offsetDigits {x y z n : Nat} (hx : x < 2) (hy : y < 4) (hz : z < 8) (hn : n = (x * 4 + y) * 8 + z) :
    n / 32 % 2 = x ∧ n / 8 % 4 = y ∧ n % 8 = z := by
  refine ⟨?_, ?_, ?_⟩ <;> omega

theorem fieldQ_digits (w : Word) : (fieldQ w).toNat / 32 % 2 = w.toNat / 8192 % 2 ∧
    (fieldQ w).toNat / 8 % 4 = w.toNat / 1024 % 4 ∧ (fieldQ w).toNat % 8 = w.toNat % 8 :=
  offsetDigits (Nat.mod_lt _ two_pos) (Nat.mod_lt _ four_pos) (Nat.mod_lt _ (by decide)) (fieldQ_toNat w)

theorem and_D208_digits (w : Word) :
    (w &&& 0xD208).toNat / 16384 = w.toNat / 16384 ∧ (w &&& 0xD208).toNat / 4096 % 2 = w.toNat / 4096 % 2 ∧
      (w &&& 0xD208).toNat / 512 % 2 = w.toNat / 512 % 2 ∧ (w &&& 0xD208).toNat / 8 % 2 = w.toNat / 8 % 2 := by
  have hn : (w &&& 0xD208).toNat = ((((((w.toNat / 16384 * 2 + 0) * 2 + w.toNat / 4096 % 2) * 4 + 0) * 2 +
      w.toNat / 512 % 2) * 32 + 0) * 2 + w.toNat / 8 % 2) * 8 + 0 := (toNat_and_D208 w).trans (by ring)
  obtain ⟨ho, -, hz, -, hs, -, hy, -⟩ := dispDigits two_pos (Nat.mod_lt _ two_pos) (by decide) (Nat.mod_lt _ two_pos)
    (by decide) (Nat.mod_lt _ two_pos) (by decide) hn
  exact ⟨ho, hz, hs, hy⟩

theorem encDisp_toNat (s : BitVec 1) (d : Reg) (y : BitVec 1) (q : BitVec 6) : (encDisp s d y q).toNat =
    ((((((2 * 2 + q.toNat / 32 % 2) * 2 + 0) * 4 + q.toNat / 8 % 4) * 2 + s.toNat) * 32 + d) * 2 + y.toNat) * 8 +
      q.toNat % 8 := by
  simp only [encDisp, toNat_append, toNat_slice, regBits_toNat, BitVec.toNat_ofNat]
  omega

theorem encDisp_digits (s : BitVec 1) (d : Reg) (y : BitVec 1) (q : BitVec 6) {n : Nat}
    (hn : n = (encDisp s d y q).toNat) :
    n / 16384 = 2 ∧ n / 8192 % 2 = q.toNat / 32 % 2 ∧ n / 4096 % 2 = 0 ∧ n / 1024 % 4 = q.toNat / 8 % 4 ∧
      n / 512 % 2 = s.toNat ∧ n / 16 % 32 = d ∧ n / 8 % 2 = y.toNat ∧ n % 8 = q.toNat % 8 :=
  dispDigits (Nat.mod_lt _ two_pos) two_pos (Nat.mod_lt _ four_pos) s.isLt d.isLt y.isLt (Nat.mod_lt _ (by decide))
    (hn.trans (encDisp_toNat s d y q))

theorem encDisp_read (s : BitVec 1) (d : Reg) (y : BitVec 1) (q : BitVec 6) :
    encDisp s d y q &&& 0xD208 = encDisp s 0 y 0#6 ∧
    fieldD5 (encDisp s d y q) = d ∧ fieldQ (encDisp s d y q) = q := by
  obtain ⟨ho, ha, hz, hb, hs, hd, hy, hc⟩ := encDisp_digits s d y q rfl
  refine ⟨BitVec.eq_of_toNat_eq ?_, Fin.ext ?_, BitVec.eq_of_toNat_eq ?_⟩
  · rw [toNat_and_D208, ho, hz, hs, hy, encDisp_toNat, BitVec.toNat_ofNat, Fin.val_zero]
    ring
  · rw [fieldD5_val, hd]
  · rw [fieldQ_toNat, ha, hb, hc]
    clear ho ha hz hb hs hd hy hc
    omega

theorem encDisp_fields {s y : BitVec 1} {w : Word} (h : w &&& 0xD208 = encDisp s 0 y 0#6) :
    encDisp s (fieldD5 w) y (fieldQ w) = w := by
  obtain ⟨ho, hz, hs, hy⟩ := and_D208_digits w
  obtain ⟨ho', -, hz', -, hs', -, hy', -⟩ := encDisp_digits s 0 y 0#6 (congrArg BitVec.toNat h)
  obtain ⟨hqa, hqb, hqc⟩ := fieldQ_digits w
  apply BitVec.eq_of_toNat_eq
  rw [encDisp_toNat, eq_dispDigits w.toNat, ← ho, ← hz, ← hs, ← hy, ho', hz', hs', hy', fieldD5_val, hqa, hqb, hqc]

/-! ### Bits (R101, R102, R106) -/

theorem encRegBit_toNat (oo : BitVec 2) (d : Reg) (b : BitNo) :
    (encRegBit oo d b).toNat = (((31 * 4 + oo.toNat) * 32 + d) * 2 + 0) * 8 + b := by
  simp only [encRegBit, toNat_append, regBits_toNat, bitBits_toNat, BitVec.toNat_ofNat]
  omega

theorem encRegBit_read (oo : BitVec 2) (d : Reg) (b : BitNo) : encRegBit oo d b &&& 0xFE08 = encRegBit oo 0 0 ∧
    fieldD5 (encRegBit oo d b) = d ∧ fieldB (encRegBit oo d b) = b := by
  refine ⟨BitVec.eq_of_toNat_eq ?_, Fin.ext ?_, Fin.ext ?_⟩ <;>
    simp only [toNat_and_FE08, fieldD5_val, fieldB_val, encRegBit_toNat] <;> omega

theorem encRegBit_fields {oo : BitVec 2} {w : Word} (h : w &&& 0xFE08 = encRegBit oo 0 0) :
    encRegBit oo (fieldD5 w) (fieldB w) = w := by
  apply BitVec.eq_of_toNat_eq
  replace h := congrArg BitVec.toNat h
  simp only [toNat_and_FE08, fieldD5_val, fieldB_val, encRegBit_toNat] at h ⊢
  omega

theorem encIOBit_toNat (oo : BitVec 2) (a : BitVec 5) (b : BitNo) :
    (encIOBit oo a b).toNat = ((38 * 4 + oo.toNat) * 32 + a.toNat) * 8 + b := by
  simp only [encIOBit, toNat_append, bitBits_toNat, BitVec.toNat_ofNat]
  omega

theorem encIOBit_read (oo : BitVec 2) (a : BitVec 5) (b : BitNo) : encIOBit oo a b &&& 0xFF00 = encIOBit oo 0#5 0 ∧
    fieldA5 (encIOBit oo a b) = a ∧ fieldB (encIOBit oo a b) = b := by
  refine ⟨BitVec.eq_of_toNat_eq ?_, BitVec.eq_of_toNat_eq ?_, Fin.ext ?_⟩ <;>
    simp only [toNat_and_FF00, fieldA5_toNat, fieldB_val, encIOBit_toNat, BitVec.toNat_ofNat] <;> omega

theorem encIOBit_fields {oo : BitVec 2} {w : Word} (h : w &&& 0xFF00 = encIOBit oo 0#5 0) :
    encIOBit oo (fieldA5 w) (fieldB w) = w := by
  apply BitVec.eq_of_toNat_eq
  replace h := congrArg BitVec.toNat h
  simp only [toNat_and_FF00, fieldA5_toNat, fieldB_val, encIOBit_toNat, BitVec.toNat_ofNat] at h ⊢
  omega

theorem encSreg_toNat (o : BitVec 1) (sb : BitNo) :
    (encSreg o sb).toNat = ((148 * 2 + o.toNat) * 8 + sb) * 16 + 8 := by
  simp only [encSreg, toNat_append, bitBits_toNat, BitVec.toNat_ofNat]
  omega

theorem encSreg_read (o : BitVec 1) (sb : BitNo) : encSreg o sb &&& 0xFF8F = encSreg o 0 ∧
    fieldS (encSreg o sb) = sb := by
  refine ⟨BitVec.eq_of_toNat_eq ?_, Fin.ext ?_⟩ <;>
    simp only [toNat_and_FF8F, fieldS_val, encSreg_toNat] <;> omega

theorem encSreg_fields {o : BitVec 1} {w : Word} (h : w &&& 0xFF8F = encSreg o 0) : encSreg o (fieldS w) = w := by
  apply BitVec.eq_of_toNat_eq
  replace h := congrArg BitVec.toNat h
  simp only [toNat_and_FF8F, fieldS_val, encSreg_toNat] at h ⊢
  omega

/-! ### Code addresses (R98, R99, R100) -/

theorem encRel12_toNat (o : BitVec 1) (k : BitVec 12) :
    (encRel12 o k).toNat = (6 * 2 + o.toNat) * 4096 + k.toNat := by
  simp only [encRel12, toNat_append, BitVec.toNat_ofNat]
  omega

theorem encRel12_read (o : BitVec 1) (k : BitVec 12) : encRel12 o k &&& 0xF000 = encRel12 o 0#12 ∧
    fieldK12 (encRel12 o k) = k := by
  refine ⟨BitVec.eq_of_toNat_eq ?_, BitVec.eq_of_toNat_eq ?_⟩ <;>
    simp only [toNat_and_F000, fieldK12_toNat, encRel12_toNat, BitVec.toNat_ofNat] <;> omega

theorem encRel12_fields {o : BitVec 1} {w : Word} (h : w &&& 0xF000 = encRel12 o 0#12) :
    encRel12 o (fieldK12 w) = w := by
  apply BitVec.eq_of_toNat_eq
  replace h := congrArg BitVec.toNat h
  rw [toNat_and_F000, encRel12_toNat, BitVec.toNat_ofNat, Nat.zero_mod, Nat.add_zero] at h
  rw [encRel12_toNat, fieldK12_toNat, ← h, Nat.div_add_mod']

theorem encBr_toNat (o : BitVec 1) (k : BitVec 7) (sb : BitNo) :
    (encBr o k sb).toNat = ((30 * 2 + o.toNat) * 128 + k.toNat) * 8 + sb := by
  simp only [encBr, toNat_append, bitBits_toNat, BitVec.toNat_ofNat]
  omega

theorem encBr_read (o : BitVec 1) (k : BitVec 7) (sb : BitNo) : encBr o k sb &&& 0xFC00 = encBr o 0#7 0 ∧
    fieldK7 (encBr o k sb) = k ∧ fieldB (encBr o k sb) = sb := by
  refine ⟨BitVec.eq_of_toNat_eq ?_, BitVec.eq_of_toNat_eq ?_, Fin.ext ?_⟩ <;>
    simp only [toNat_and_FC00, fieldK7_toNat, fieldB_val, encBr_toNat, BitVec.toNat_ofNat] <;> omega

theorem encBr_fields {o : BitVec 1} {w : Word} (h : w &&& 0xFC00 = encBr o 0#7 0) :
    encBr o (fieldK7 w) (fieldB w) = w := by
  apply BitVec.eq_of_toNat_eq
  replace h := congrArg BitVec.toNat h
  simp only [toNat_and_FC00, fieldK7_toNat, fieldB_val, encBr_toNat, BitVec.toNat_ofNat] at h ⊢
  omega

/-- The first word of JMP and CALL. -/
def absWord (o : BitVec 1) (k : BitVec 22) : Word :=
  0b1001010#7 ++ k.extractLsb' 17 5 ++ 0b11#2 ++ o ++ k.extractLsb' 16 1

theorem encAbs22_eq (o : BitVec 1) (k : BitVec 22) : encAbs22 o k = [absWord o k, k.extractLsb' 0 16] := rfl

theorem absWord_toNat (o : BitVec 1) (k : BitVec 22) :
    (absWord o k).toNat = (((74 * 32 + k.toNat / 131072 % 32) * 4 + 3) * 2 + o.toNat) * 2 + k.toNat / 65536 % 2 := by
  simp only [absWord, toNat_append, toNat_slice, BitVec.toNat_ofNat]
  omega

theorem absWord_read (o : BitVec 1) (k : BitVec 22) : absWord o k &&& 0xFE0E = absWord o 0#22 ∧
    fieldK22 (absWord o k) (k.extractLsb' 0 16) = k := by
  refine ⟨BitVec.eq_of_toNat_eq ?_, BitVec.eq_of_toNat_eq ?_⟩ <;>
    simp only [toNat_and_FE0E, fieldK22_toNat, absWord_toNat, toNat_slice, BitVec.toNat_ofNat] <;> omega

theorem encAbs22_fields {o : BitVec 1} {w k : Word} (h : w &&& 0xFE0E = absWord o 0#22) :
    encAbs22 o (fieldK22 w k) = [w, k] := by
  have hfirst : absWord o (fieldK22 w k) = w := by
    apply BitVec.eq_of_toNat_eq
    replace h := congrArg BitVec.toNat h
    simp only [toNat_and_FE0E, fieldK22_toNat, absWord_toNat, BitVec.toNat_ofNat] at h ⊢
    omega
  have hsecond : (fieldK22 w k).extractLsb' 0 16 = k := by
    apply BitVec.eq_of_toNat_eq
    rw [toNat_slice, fieldK22_toNat]
    omega
  rw [encAbs22_eq, hfirst, hsecond]

end Sys2Proof.Proofs.Encoding
end

section
/-! PROOF. The opcode table as tests of a word: its rows are pairwise disjoint (spec/30_encoding.md R111), a row that selects
the first word is the one that decodes it, and its pattern tells the length (R90, R109). -/

namespace Sys2Proof.Proofs.Encoding

open Sys2Proof.Machine

/-! ### Rows and tests -/

/-- Among the bits that both test, the row's pattern differs from `p` under the mask `m`. -/
def conflicts (r : Row) (m p : Word) : Bool := (r.pat ^^^ p) &&& r.mask &&& m != 0

/-- The row's mask tells the outcome of the test of the bits `m` for `p`. -/
def settles (r : Row) (m p : Word) : Bool := r.mask &&& m == m || conflicts r m p

section
variable {r : Row} {m p w : Word}

theorem and_mask_of_selects (hs : r.selects w = true) : w &&& r.mask = r.pat := eq_of_beq hs

theorem selects_pat (hs : r.selects w = true) : r.selects r.pat = true := by
  rw [Row.selects, ← and_mask_of_selects hs, BitVec.and_assoc, BitVec.and_self, beq_self_eq_true]

theorem and_ne_of_conflicts (hc : conflicts r m p = true) (hs : r.selects w = true) : w &&& m ≠ p := by
  rintro rfl
  apply bne_iff_ne.1 hc
  rw [← and_mask_of_selects hs]
  ext i
  simp only [BitVec.getElem_and, BitVec.getElem_xor, BitVec.ofNat_eq_ofNat, BitVec.getElem_zero]
  cases w[i] <;> cases r.mask[i] <;> cases m[i] <;> rfl

/-- Every word a row selects answers a test it settles as its pattern does. -/
theorem test_eq_pat (h : settles r m p = true) (hs : r.selects w = true) : (w &&& m == p) = (r.pat &&& m == p) := by
  obtain hm | hc := Bool.or_eq_true_iff.1 h
  · have hwm : w &&& m = r.pat &&& m := by
      rw [← and_mask_of_selects hs, BitVec.and_assoc, eq_of_beq hm]
    rw [hwm]
  · rw [beq_false_of_ne (and_ne_of_conflicts hc hs), beq_false_of_ne (and_ne_of_conflicts hc (selects_pat hs))]

end

/-! ### The table -/

/-- Any two rows of the table are in conflict. -/
theorem opcodeTable_conflicts : opcodeTable.Pairwise (fun r q => conflicts r q.mask q.pat = true) := by
  decide +kernel

/-- Every row of the table settles the four tests of a two-word instruction. -/
theorem opcodeTable_settles : ∀ r ∈ opcodeTable, settles r 0xFE0E 0x940C = true ∧ settles r 0xFE0E 0x940E = true ∧
    settles r 0xFE0F 0x9000 = true ∧ settles r 0xFE0F 0x9200 = true := by
  decide +kernel

/-- Settles O3: of two rows that select a word, the masks and patterns would be in conflict. -/
theorem opcodeRowsDisjoint : Obligations.OpcodeRowsDisjoint := by
  intro w
  have hpair := opcodeTable_conflicts.filter (fun r => r.selects w)
  have hsel : ∀ r ∈ opcodeTable.filter (fun r => r.selects w), r.selects w = true := fun r hr => (List.mem_filter.1 hr).2
  generalize opcodeTable.filter (fun r => r.selects w) = rows at hpair hsel ⊢
  match rows with
  | [] => exact Nat.zero_le 1
  | [_] => exact Nat.le_refl 1
  | r :: q :: _ =>
    have hconf : conflicts r q.mask q.pat = true := List.rel_of_pairwise_cons hpair List.mem_cons_self
    exact absurd (and_mask_of_selects (hsel q (by simp))) (and_ne_of_conflicts hconf (hsel r (by simp)))

/-- The row that selects a word is the one the decoder finds. -/
theorem find_row {r : Row} {w : Word} (hr : r ∈ opcodeTable) (hs : r.selects w = true) :
    opcodeTable.find? (fun r => r.selects w) = some r := by
  have hmem : r ∈ opcodeTable.filter (fun r => r.selects w) := List.mem_filter.2 ⟨hr, hs⟩
  obtain ⟨q, hq⟩ := List.length_eq_one_iff.1 (Nat.le_antisymm (opcodeRowsDisjoint w) (List.length_pos_of_mem hmem))
  rw [hq, List.mem_singleton] at hmem
  rw [← List.head?_filter, hq, hmem, List.head?_cons]

/-- A row's pattern tells how long the instructions are whose first word it selects. -/
theorem isTwoWord_eq_pat {r : Row} {w : Word} (hr : r ∈ opcodeTable) (hs : r.selects w = true) :
    isTwoWord w = isTwoWord r.pat := by
  obtain ⟨hjmp, hcall, hlds, hsts⟩ := opcodeTable_settles r hr
  rw [isTwoWord, test_eq_pat hjmp hs, test_eq_pat hcall hs, test_eq_pat hlds hs, test_eq_pat hsts hs, isTwoWord]

/-! ### Decoding by a row -/

/-- What decodes is built by the row that selects its first word, from the second word where there is one. -/
theorem decode_eq_ok {ws rest : List Word} {i : Instr} (h : decode ws = .ok (i, rest)) :
    ∃ r ∈ opcodeTable, ∃ w k, r.selects w = true ∧ r.build w k = i ∧
      ws = (if isTwoWord r.pat then [w, k] else [w]) ++ rest := by
  match ws with
  | [] => cases h
  | w :: tail =>
    rw [decode] at h
    split at h
    · cases h
    next r hfind =>
      have hr := List.mem_of_find?_eq_some hfind
      have hs := List.find?_some hfind
      rw [isTwoWord_eq_pat hr hs] at h
      split at h
      next h2 =>
        match tail with
        | [] => cases h
        | k :: _ =>
          cases h
          exact ⟨r, hr, w, k, hs, rfl, by rw [if_pos h2]; rfl⟩
      next h1 =>
        cases h
        exact ⟨r, hr, w, 0, hs, rfl, by rw [if_neg h1]; rfl⟩

/-- The decoder builds by the row that selects the first word, from as many words as the row's pattern tells. -/
theorem decode_of_row {r : Row} {w : Word} {ws rest : List Word} (hr : r ∈ opcodeTable) (hs : r.selects w = true)
    (hlen : ws.length = if isTwoWord r.pat then 1 else 0) :
    decode (w :: ws ++ rest) = .ok (r.build w (ws.headD 0), rest) := by
  rw [List.cons_append, decode, find_row hr hs]
  simp only [isTwoWord_eq_pat hr hs]
  split at hlen
  next h2 =>
    obtain ⟨k, rfl⟩ := List.length_eq_one_iff.1 hlen
    rw [if_pos h2]
    rfl
  next h1 =>
    rw [List.length_eq_zero_iff.1 hlen, if_neg h1]
    rfl

end Sys2Proof.Proofs.Encoding
end

section
/-! PROOF. The opcode table and the encoder agree (spec/30_encoding.md R91, R92): each row builds, from a word it selects, an
instruction whose words start with that word; and each primary instruction is built so by a row. -/

namespace Sys2Proof.Proofs.Encoding

open Sys2Proof.Machine Sys2Proof.Laws

/-! ### From words to instructions -/

/-- What the row builds from a word it selects, and from any second word, is well formed, primary, and encoded by those
words. -/
def Sound (r : Row) : Prop :=
  ∀ w k, r.selects w = true → wellFormed (r.build w k) = true ∧ canonical (r.build w k) = r.build w k ∧
    encode (r.build w k) = if isTwoWord r.pat then [w, k] else [w]

/-- The words of a one-word instruction, by what its row's test gives. -/
theorem words_of_test {w x m p : Word} (hx : w &&& m = p → x = w) (h : (w &&& m == p) = true) : [x] = [w] :=
  congrArg ([·]) (hx (eq_of_beq h))

/-- A word that a row tests whole is the row's pattern. -/
theorem const_fields {w p : Word} (h : w &&& 0xFFFF = p) : p = w := h.symm.trans (and_FFFF w)

/-- The words of LDS and STS. -/
theorem encLdSt16_fields {s : BitVec 1} {w k : Word} (h : w &&& 0xFE0F = encLdSt s 0 0) :
    encLdSt16 s (fieldD5 w) k = [w, k] :=
  congrArg ([·, k]) (encLdSt_fields h)

/-! Each group's rows in the order of the table, each row by its format. -/

theorem rowsArith_sound : ∀ r ∈ rowsArith, Sound r := by
  simp only [rowsArith, List.forall_mem_cons]
  exact ⟨
    fun _ _ h => ⟨rfl, rfl, words_of_test encRdRr_fields h⟩,
    fun _ _ h => ⟨rfl, rfl, words_of_test encRdRr_fields h⟩,
    fun w _ h => ⟨isPairLow_fieldPair w, rfl, words_of_test encWK_fields h⟩,
    fun _ _ h => ⟨rfl, rfl, words_of_test encRdRr_fields h⟩,
    fun w _ h => ⟨isUpper_fieldD4 w, rfl, words_of_test encRdK_fields h⟩,
    fun _ _ h => ⟨rfl, rfl, words_of_test encRdRr_fields h⟩,
    fun w _ h => ⟨isUpper_fieldD4 w, rfl, words_of_test encRdK_fields h⟩,
    fun w _ h => ⟨isPairLow_fieldPair w, rfl, words_of_test encWK_fields h⟩,
    fun _ _ h => ⟨rfl, rfl, words_of_test encRdRr_fields h⟩,
    fun w _ h => ⟨isUpper_fieldD4 w, rfl, words_of_test encRdK_fields h⟩,
    fun _ _ h => ⟨rfl, rfl, words_of_test encRdRr_fields h⟩,
    fun w _ h => ⟨isUpper_fieldD4 w, rfl, words_of_test encRdK_fields h⟩,
    fun _ _ h => ⟨rfl, rfl, words_of_test encRdRr_fields h⟩,
    fun _ _ h => ⟨rfl, rfl, words_of_test encRd_fields h⟩,
    fun _ _ h => ⟨rfl, rfl, words_of_test encRd_fields h⟩,
    fun _ _ h => ⟨rfl, rfl, words_of_test encRd_fields h⟩,
    fun _ _ h => ⟨rfl, rfl, words_of_test encRd_fields h⟩,
    fun _ _ h => ⟨rfl, rfl, words_of_test encRdRr_fields h⟩,
    fun w _ h => ⟨Bool.and_eq_true_iff.2 ⟨isUpper_fieldD4 w, isUpper_fieldR4 w⟩, rfl, words_of_test encMul4_fields h⟩,
    fun w _ h => ⟨Bool.and_eq_true_iff.2 ⟨isMul3_fieldD3 w, isMul3_fieldR3 w⟩, rfl, words_of_test encMul3_fields h⟩,
    fun w _ h => ⟨Bool.and_eq_true_iff.2 ⟨isMul3_fieldD3 w, isMul3_fieldR3 w⟩, rfl, words_of_test encMul3_fields h⟩,
    fun w _ h => ⟨Bool.and_eq_true_iff.2 ⟨isMul3_fieldD3 w, isMul3_fieldR3 w⟩, rfl, words_of_test encMul3_fields h⟩,
    fun w _ h => ⟨Bool.and_eq_true_iff.2 ⟨isMul3_fieldD3 w, isMul3_fieldR3 w⟩, rfl, words_of_test encMul3_fields h⟩,
    List.forall_mem_nil _⟩

theorem rowsBranch_sound : ∀ r ∈ rowsBranch, Sound r := by
  simp only [rowsBranch, List.forall_mem_cons]
  exact ⟨
    fun _ _ h => ⟨rfl, rfl, words_of_test encRel12_fields h⟩,
    fun _ _ h => ⟨rfl, rfl, words_of_test const_fields h⟩,
    fun _ _ h => ⟨rfl, rfl, encAbs22_fields (eq_of_beq h)⟩,
    fun _ _ h => ⟨rfl, rfl, words_of_test encRel12_fields h⟩,
    fun _ _ h => ⟨rfl, rfl, words_of_test const_fields h⟩,
    fun _ _ h => ⟨rfl, rfl, encAbs22_fields (eq_of_beq h)⟩,
    fun _ _ h => ⟨rfl, rfl, words_of_test const_fields h⟩,
    fun _ _ h => ⟨rfl, rfl, words_of_test const_fields h⟩,
    fun _ _ h => ⟨rfl, rfl, words_of_test encRdRr_fields h⟩,
    fun _ _ h => ⟨rfl, rfl, words_of_test encRdRr_fields h⟩,
    fun _ _ h => ⟨rfl, rfl, words_of_test encRdRr_fields h⟩,
    fun w _ h => ⟨isUpper_fieldD4 w, rfl, words_of_test encRdK_fields h⟩,
    fun _ _ h => ⟨rfl, rfl, words_of_test encRegBit_fields h⟩,
    fun _ _ h => ⟨rfl, rfl, words_of_test encRegBit_fields h⟩,
    fun _ _ h => ⟨rfl, rfl, words_of_test encIOBit_fields h⟩,
    fun _ _ h => ⟨rfl, rfl, words_of_test encIOBit_fields h⟩,
    fun _ _ h => ⟨rfl, rfl, words_of_test encBr_fields h⟩,
    fun _ _ h => ⟨rfl, rfl, words_of_test encBr_fields h⟩,
    List.forall_mem_nil _⟩

theorem rowsControl_sound : ∀ r ∈ rowsControl, Sound r := by
  simp only [rowsControl, List.forall_mem_cons]
  exact ⟨
    fun _ _ h => ⟨rfl, rfl, words_of_test const_fields h⟩,
    fun _ _ h => ⟨rfl, rfl, words_of_test const_fields h⟩,
    List.forall_mem_nil _⟩

theorem rowsTransfer_sound : ∀ r ∈ rowsTransfer, Sound r := by
  simp only [rowsTransfer, List.forall_mem_cons]
  exact ⟨
    fun _ _ h => ⟨rfl, rfl, words_of_test encRdRr_fields h⟩,
    fun w _ h => ⟨Bool.and_eq_true_iff.2 ⟨isEven_fieldEvenD w, isEven_fieldEvenR w⟩, rfl, words_of_test encMovW_fields h⟩,
    fun w _ h => ⟨isUpper_fieldD4 w, rfl, words_of_test encRdK_fields h⟩,
    fun _ _ h => ⟨rfl, rfl, words_of_test encLdSt_fields h⟩,
    fun _ _ h => ⟨rfl, rfl, words_of_test encLdSt_fields h⟩,
    fun _ _ h => ⟨rfl, rfl, words_of_test encLdSt_fields h⟩,
    fun _ _ h => ⟨rfl, rfl, words_of_test encLdSt_fields h⟩,
    fun _ _ h => ⟨rfl, rfl, words_of_test encLdSt_fields h⟩,
    fun _ _ h => ⟨rfl, rfl, words_of_test encDisp_fields h⟩,
    fun _ _ h => ⟨rfl, rfl, words_of_test encLdSt_fields h⟩,
    fun _ _ h => ⟨rfl, rfl, words_of_test encLdSt_fields h⟩,
    fun _ _ h => ⟨rfl, rfl, words_of_test encDisp_fields h⟩,
    fun _ _ h => ⟨rfl, rfl, encLdSt16_fields (eq_of_beq h)⟩,
    fun _ _ h => ⟨rfl, rfl, words_of_test encLdSt_fields h⟩,
    fun _ _ h => ⟨rfl, rfl, words_of_test encLdSt_fields h⟩,
    fun _ _ h => ⟨rfl, rfl, words_of_test encLdSt_fields h⟩,
    fun _ _ h => ⟨rfl, rfl, words_of_test encLdSt_fields h⟩,
    fun _ _ h => ⟨rfl, rfl, words_of_test encLdSt_fields h⟩,
    fun _ _ h => ⟨rfl, rfl, words_of_test encDisp_fields h⟩,
    fun _ _ h => ⟨rfl, rfl, words_of_test encLdSt_fields h⟩,
    fun _ _ h => ⟨rfl, rfl, words_of_test encLdSt_fields h⟩,
    fun _ _ h => ⟨rfl, rfl, words_of_test encDisp_fields h⟩,
    fun _ _ h => ⟨rfl, rfl, encLdSt16_fields (eq_of_beq h)⟩,
    fun _ _ h => ⟨rfl, rfl, words_of_test const_fields h⟩,
    fun _ _ h => ⟨rfl, rfl, words_of_test encLdSt_fields h⟩,
    fun _ _ h => ⟨rfl, rfl, words_of_test encLdSt_fields h⟩,
    fun _ _ h => ⟨rfl, rfl, words_of_test const_fields h⟩,
    fun _ _ h => ⟨rfl, rfl, words_of_test encLdSt_fields h⟩,
    fun _ _ h => ⟨rfl, rfl, words_of_test encLdSt_fields h⟩,
    fun _ _ h => ⟨rfl, rfl, words_of_test const_fields h⟩,
    fun _ _ h => ⟨rfl, rfl, words_of_test encIO_fields h⟩,
    fun _ _ h => ⟨rfl, rfl, words_of_test encIO_fields h⟩,
    fun _ _ h => ⟨rfl, rfl, words_of_test encLdSt_fields h⟩,
    fun _ _ h => ⟨rfl, rfl, words_of_test encLdSt_fields h⟩,
    List.forall_mem_nil _⟩

theorem rowsBits_sound : ∀ r ∈ rowsBits, Sound r := by
  simp only [rowsBits, List.forall_mem_cons]
  exact ⟨
    fun _ _ h => ⟨rfl, rfl, words_of_test encIOBit_fields h⟩,
    fun _ _ h => ⟨rfl, rfl, words_of_test encIOBit_fields h⟩,
    fun _ _ h => ⟨rfl, rfl, words_of_test encRd_fields h⟩,
    fun _ _ h => ⟨rfl, rfl, words_of_test encRd_fields h⟩,
    fun _ _ h => ⟨rfl, rfl, words_of_test encRd_fields h⟩,
    fun _ _ h => ⟨rfl, rfl, words_of_test encRd_fields h⟩,
    fun _ _ h => ⟨rfl, rfl, words_of_test encSreg_fields h⟩,
    fun _ _ h => ⟨rfl, rfl, words_of_test encSreg_fields h⟩,
    fun _ _ h => ⟨rfl, rfl, words_of_test encRegBit_fields h⟩,
    fun _ _ h => ⟨rfl, rfl, words_of_test encRegBit_fields h⟩,
    List.forall_mem_nil _⟩

theorem opcodeTable_sound : ∀ r ∈ opcodeTable, Sound r := by
  simp only [opcodeTable, List.forall_mem_append]
  exact ⟨⟨⟨⟨rowsArith_sound, rowsBranch_sound⟩, rowsControl_sound⟩, rowsTransfer_sound⟩, rowsBits_sound⟩

/-- Settles O2: the row that selects the first word is sound. -/
theorem encodeOfDecode : Obligations.EncodeOfDecode := by
  intro ws rest i h
  obtain ⟨r, hr, w, k, hs, rfl, hws⟩ := decode_eq_ok h
  obtain ⟨hwf, hcanon, henc⟩ := opcodeTable_sound r hr w k hs
  exact ⟨hwf, hcanon, by rw [henc, hws]⟩

/-! ### From instructions to words -/

/-- The first of the instruction's words selects a row that builds it, from the second where there is one. -/
def HasRow (i : Instr) : Prop :=
  ∃ w ws, encode i = w :: ws ∧ ∃ r ∈ opcodeTable, r.selects w = true ∧ r.build w (ws.headD 0) = i

theorem hasRow_encRdRr {mk : Reg → Reg → Instr} {op : BitVec 6} {d r : Reg}
    (henc : encode (mk d r) = [encRdRr op d r])
    (hrow : ⟨0xFC00, encRdRr op 0 0, fun w _ => mk (fieldD5 w) (fieldR5 w)⟩ ∈ opcodeTable) : HasRow (mk d r) := by
  obtain ⟨hmask, hfst, hsnd⟩ := encRdRr_read op d r
  exact ⟨_, _, henc, _, hrow, beq_of_eq hmask, congrArg₂ mk hfst hsnd⟩

theorem hasRow_encMovW {mk : Reg → Reg → Instr} {d r : Reg}
    (henc : encode (mk d r) = [encMovW d r]) (hwf : (isEven d && isEven r) = true)
    (hrow : ⟨0xFF00, encMovW 0 0, fun w _ => mk (fieldEvenD w) (fieldEvenR w)⟩ ∈ opcodeTable) : HasRow (mk d r) := by
  obtain ⟨hd, hr⟩ := Bool.and_eq_true_iff.1 hwf
  obtain ⟨hmask, hfst, hsnd⟩ := encMovW_read hd hr
  exact ⟨_, _, henc, _, hrow, beq_of_eq hmask, congrArg₂ mk hfst hsnd⟩

theorem hasRow_encMul4 {mk : Reg → Reg → Instr} {d r : Reg}
    (henc : encode (mk d r) = [encMul4 d r]) (hwf : (isUpper d && isUpper r) = true)
    (hrow : ⟨0xFF00, encMul4 0 0, fun w _ => mk (fieldD4 w) (fieldR4 w)⟩ ∈ opcodeTable) : HasRow (mk d r) := by
  obtain ⟨hd, hr⟩ := Bool.and_eq_true_iff.1 hwf
  obtain ⟨hmask, hfst, hsnd⟩ := encMul4_read hd hr
  exact ⟨_, _, henc, _, hrow, beq_of_eq hmask, congrArg₂ mk hfst hsnd⟩

theorem hasRow_encMul3 {mk : Reg → Reg → Instr} {u v : BitVec 1} {d r : Reg}
    (henc : encode (mk d r) = [encMul3 u v d r]) (hwf : (isMul3 d && isMul3 r) = true)
    (hrow : ⟨0xFF88, encMul3 u v 0 0, fun w _ => mk (fieldD3 w) (fieldR3 w)⟩ ∈ opcodeTable) : HasRow (mk d r) := by
  obtain ⟨hd, hr⟩ := Bool.and_eq_true_iff.1 hwf
  obtain ⟨hmask, hfst, hsnd⟩ := encMul3_read hd hr
  exact ⟨_, _, henc, _, hrow, beq_of_eq hmask, congrArg₂ mk hfst hsnd⟩

theorem hasRow_encRdK {mk : Reg → Byte → Instr} {op : BitVec 4} {d : Reg} {k : Byte}
    (henc : encode (mk d k) = [encRdK op d k]) (hd : isUpper d = true)
    (hrow : ⟨0xF000, encRdK op 0 0#8, fun w _ => mk (fieldD4 w) (fieldK8 w)⟩ ∈ opcodeTable) : HasRow (mk d k) := by
  obtain ⟨hmask, hfst, hsnd⟩ := encRdK_read hd
  exact ⟨_, _, henc, _, hrow, beq_of_eq hmask, congrArg₂ mk hfst hsnd⟩

theorem hasRow_encWK {mk : Reg → BitVec 6 → Instr} {o : BitVec 1} {d : Reg} {k : BitVec 6}
    (henc : encode (mk d k) = [encWK o d k]) (hd : isPairLow d = true)
    (hrow : ⟨0xFF00, encWK o 0 0#6, fun w _ => mk (fieldPair w) (fieldK6 w)⟩ ∈ opcodeTable) : HasRow (mk d k) := by
  obtain ⟨hmask, hfst, hsnd⟩ := encWK_read hd
  exact ⟨_, _, henc, _, hrow, beq_of_eq hmask, congrArg₂ mk hfst hsnd⟩

theorem hasRow_encRd {mk : Reg → Instr} {op : BitVec 4} {d : Reg}
    (henc : encode (mk d) = [encRd d op])
    (hrow : ⟨0xFE0F, encRd 0 op, fun w _ => mk (fieldD5 w)⟩ ∈ opcodeTable) : HasRow (mk d) := by
  obtain ⟨hmask, h⟩ := encRd_read d op
  exact ⟨_, _, henc, _, hrow, beq_of_eq hmask, congrArg mk h⟩

theorem hasRow_encLdSt {mk : Reg → Instr} {s : BitVec 1} {mode : BitVec 4} {d : Reg}
    (henc : encode (mk d) = [encLdSt s d mode])
    (hrow : ⟨0xFE0F, encLdSt s 0 mode, fun w _ => mk (fieldD5 w)⟩ ∈ opcodeTable) : HasRow (mk d) := by
  obtain ⟨hmask, h⟩ := encLdSt_read s d mode
  exact ⟨_, _, henc, _, hrow, beq_of_eq hmask, congrArg mk h⟩

theorem hasRow_encLdSt16 {mk : Reg → Word → Instr} {s : BitVec 1} {d : Reg} {k : Word}
    (henc : encode (mk d k) = encLdSt16 s d k)
    (hrow : ⟨0xFE0F, encLdSt s 0 0, fun w k => mk (fieldD5 w) k⟩ ∈ opcodeTable) : HasRow (mk d k) := by
  obtain ⟨hmask, h⟩ := encLdSt_read s d 0
  exact ⟨_, _, henc, _, hrow, beq_of_eq hmask, congrArg (mk · k) h⟩

theorem hasRow_encDisp {mk : Reg → BitVec 6 → Instr} {s y : BitVec 1} {d : Reg} {q : BitVec 6}
    (henc : encode (mk d q) = [encDisp s d y q])
    (hrow : ⟨0xD208, encDisp s 0 y 0#6, fun w _ => mk (fieldD5 w) (fieldQ w)⟩ ∈ opcodeTable) : HasRow (mk d q) := by
  obtain ⟨hmask, hfst, hsnd⟩ := encDisp_read s d y q
  exact ⟨_, _, henc, _, hrow, beq_of_eq hmask, congrArg₂ mk hfst hsnd⟩

theorem hasRow_encIO {mk : BitVec 6 → Reg → Instr} {o : BitVec 1} {a : BitVec 6} {d : Reg}
    (henc : encode (mk a d) = [encIO o a d])
    (hrow : ⟨0xF800, encIO o 0#6 0, fun w _ => mk (fieldA6 w) (fieldD5 w)⟩ ∈ opcodeTable) : HasRow (mk a d) := by
  obtain ⟨hmask, hfst, hsnd⟩ := encIO_read o a d
  exact ⟨_, _, henc, _, hrow, beq_of_eq hmask, congrArg₂ mk hfst hsnd⟩

theorem hasRow_encRegBit {mk : Reg → BitNo → Instr} {oo : BitVec 2} {d : Reg} {b : BitNo}
    (henc : encode (mk d b) = [encRegBit oo d b])
    (hrow : ⟨0xFE08, encRegBit oo 0 0, fun w _ => mk (fieldD5 w) (fieldB w)⟩ ∈ opcodeTable) : HasRow (mk d b) := by
  obtain ⟨hmask, hfst, hsnd⟩ := encRegBit_read oo d b
  exact ⟨_, _, henc, _, hrow, beq_of_eq hmask, congrArg₂ mk hfst hsnd⟩

theorem hasRow_encIOBit {mk : BitVec 5 → BitNo → Instr} {oo : BitVec 2} {a : BitVec 5} {b : BitNo}
    (henc : encode (mk a b) = [encIOBit oo a b])
    (hrow : ⟨0xFF00, encIOBit oo 0#5 0, fun w _ => mk (fieldA5 w) (fieldB w)⟩ ∈ opcodeTable) : HasRow (mk a b) := by
  obtain ⟨hmask, hfst, hsnd⟩ := encIOBit_read oo a b
  exact ⟨_, _, henc, _, hrow, beq_of_eq hmask, congrArg₂ mk hfst hsnd⟩

theorem hasRow_encSreg {mk : BitNo → Instr} {o : BitVec 1} {sb : BitNo}
    (henc : encode (mk sb) = [encSreg o sb])
    (hrow : ⟨0xFF8F, encSreg o 0, fun w _ => mk (fieldS w)⟩ ∈ opcodeTable) : HasRow (mk sb) := by
  obtain ⟨hmask, h⟩ := encSreg_read o sb
  exact ⟨_, _, henc, _, hrow, beq_of_eq hmask, congrArg mk h⟩

theorem hasRow_encRel12 {mk : BitVec 12 → Instr} {o : BitVec 1} {k : BitVec 12}
    (henc : encode (mk k) = [encRel12 o k])
    (hrow : ⟨0xF000, encRel12 o 0#12, fun w _ => mk (fieldK12 w)⟩ ∈ opcodeTable) : HasRow (mk k) := by
  obtain ⟨hmask, h⟩ := encRel12_read o k
  exact ⟨_, _, henc, _, hrow, beq_of_eq hmask, congrArg mk h⟩

theorem hasRow_encBr {mk : BitNo → BitVec 7 → Instr} {o : BitVec 1} {sb : BitNo} {k : BitVec 7}
    (henc : encode (mk sb k) = [encBr o k sb])
    (hrow : ⟨0xFC00, encBr o 0#7 0, fun w _ => mk (fieldB w) (fieldK7 w)⟩ ∈ opcodeTable) : HasRow (mk sb k) := by
  obtain ⟨hmask, hk, hsb⟩ := encBr_read o k sb
  exact ⟨_, _, henc, _, hrow, beq_of_eq hmask, congrArg₂ mk hsb hk⟩

theorem hasRow_encAbs22 {mk : BitVec 22 → Instr} {o : BitVec 1} {k : BitVec 22} (henc : encode (mk k) = encAbs22 o k)
    (hrow : ⟨0xFE0E, absWord o 0#22, fun w k => mk (fieldK22 w k)⟩ ∈ opcodeTable) : HasRow (mk k) := by
  obtain ⟨hmask, h⟩ := absWord_read o k
  exact ⟨_, _, henc, _, hrow, beq_of_eq hmask, congrArg mk h⟩

theorem hasRow_const {i : Instr} {c : Word} (henc : encode i = [c])
    (hrow : ⟨0xFFFF, c, fun _ _ => i⟩ ∈ opcodeTable) : HasRow i :=
  ⟨_, _, henc, _, hrow, beq_of_eq (and_FFFF c), rfl⟩

/-- Every well-formed primary instruction is built by the row that its first word selects, format by format. -/
theorem hasRow_of_primary {i : Instr} (hwf : wellFormed i = true) (hprim : canonical i = i) : HasRow i := by
  cases i with
  | add d r | adc d r | sub d r | sbc d r | and d r | or d r | eor d r | mul d r | cpse d r | cp d r | cpc d r
  | mov d r =>
    exact hasRow_encRdRr rfl (by simp [opcodeTable, rowsArith, rowsBranch, rowsTransfer, encRdRr, regBits])
  | movw d r =>
    exact hasRow_encMovW rfl hwf (by simp [opcodeTable, rowsTransfer, encMovW, regBits])
  | muls d r =>
    exact hasRow_encMul4 rfl hwf (by simp [opcodeTable, rowsArith, encMul4, regBits])
  | mulsu d r | fmul d r | fmuls d r | fmulsu d r =>
    exact hasRow_encMul3 rfl hwf (by simp [opcodeTable, rowsArith, encMul3, regBits])
  | subi d k | sbci d k | andi d k | ori d k | cpi d k | ldi d k =>
    exact hasRow_encRdK rfl hwf (by simp [opcodeTable, rowsArith, rowsBranch, rowsTransfer, encRdK, regBits])
  | adiw d k | sbiw d k =>
    exact hasRow_encWK rfl hwf (by simp [opcodeTable, rowsArith, encWK, regBits])
  | com d | neg d | inc d | dec d | lsr d | ror d | asr d | swap d =>
    exact hasRow_encRd rfl (by simp [opcodeTable, rowsArith, rowsBits, encRd, regBits])
  | ldX d | ldXInc d | ldXDec d | ldYInc d | ldYDec d | ldZInc d | ldZDec d | stX r | stXInc r | stXDec r
  | stYInc r | stYDec r | stZInc r | stZDec r | lpm d | lpmInc d | elpm d | elpmInc d | push r | pop d =>
    exact hasRow_encLdSt rfl (by simp [opcodeTable, rowsTransfer, encLdSt, regBits])
  | lds d k =>
    exact hasRow_encLdSt16 rfl (by simp [opcodeTable, rowsTransfer, encLdSt, regBits])
  | sts k r =>
    exact hasRow_encLdSt16 (mk := fun d k => .sts k d) rfl (by simp [opcodeTable, rowsTransfer, encLdSt, regBits])
  | lddY d q | lddZ d q =>
    exact hasRow_encDisp rfl (by simp [opcodeTable, rowsTransfer, encDisp, regBits])
  | stdY q r =>
    exact hasRow_encDisp (mk := fun d q => .stdY q d) rfl (by simp [opcodeTable, rowsTransfer, encDisp, regBits])
  | stdZ q r =>
    exact hasRow_encDisp (mk := fun d q => .stdZ q d) rfl (by simp [opcodeTable, rowsTransfer, encDisp, regBits])
  | inp d a =>
    exact hasRow_encIO (mk := fun a d => .inp d a) rfl (by simp [opcodeTable, rowsTransfer, encIO, regBits])
  | out a r =>
    exact hasRow_encIO rfl (by simp [opcodeTable, rowsTransfer, encIO, regBits])
  | sbrc r b | sbrs r b | bst r b | bld d b =>
    exact hasRow_encRegBit rfl (by simp [opcodeTable, rowsBranch, rowsBits, encRegBit, regBits, bitBits])
  | sbic a b | sbis a b | sbi a b | cbi a b =>
    exact hasRow_encIOBit rfl (by simp [opcodeTable, rowsBranch, rowsBits, encIOBit, bitBits])
  | bset sb | bclr sb =>
    exact hasRow_encSreg rfl (by simp [opcodeTable, rowsBits, encSreg, bitBits])
  | rjmp k | rcall k =>
    exact hasRow_encRel12 rfl (by simp [opcodeTable, rowsBranch, encRel12])
  | brbs sb k | brbc sb k =>
    exact hasRow_encBr rfl (by simp [opcodeTable, rowsBranch, encBr, bitBits])
  | jmp k | call k =>
    exact hasRow_encAbs22 rfl (by simp [opcodeTable, rowsBranch, absWord])
  | ijmp | icall | ret | reti | nop | sleep | lpmR0 | elpmR0 | spm =>
    exact hasRow_const rfl (by simp [opcodeTable, rowsBranch, rowsControl, rowsTransfer])
  | _ => cases hprim

/-- The words of a well-formed instruction: the first selects a row, which builds the instruction (or its parent)
and tells how many follow. -/
theorem words_of_wellFormed {i : Instr} (hwf : wellFormed i = true) :
    ∃ w ws, encode i = w :: ws ∧ ∃ r ∈ opcodeTable, r.selects w = true ∧ r.build w (ws.headD 0) = canonical i ∧
      ws.length = if isTwoWord r.pat then 1 else 0 := by
  obtain ⟨hwf', hprim, henc, -⟩ := Laws.WordShape.holds i hwf
  obtain ⟨w, ws, hw, r, hr, hs, hbuild⟩ := hasRow_of_primary hwf' hprim
  obtain ⟨-, -, hwords⟩ := opcodeTable_sound r hr w (ws.headD 0) hs
  rw [hbuild, hw] at hwords
  refine ⟨w, ws, henc.symm.trans hw, r, hr, hs, hbuild, ?_⟩
  apply Nat.succ_injective
  refine (congrArg List.length hwords).trans ?_
  split <;> rfl

/-- Settles O1: the row that the first word selects builds the instruction, and the decoder finds it. -/
theorem decodeOfEncode : Obligations.DecodeOfEncode := by
  intro i rest hwf
  obtain ⟨w, ws, hw, r, hr, hs, hbuild, hlen⟩ := words_of_wellFormed hwf
  rw [hw, decode_of_row hr hs hlen, hbuild]

/-- The instructions of two words. -/
theorem encode_length_two (i : Instr) : (encode i).length = 2 ↔
    (∃ k, i = .jmp k) ∨ (∃ k, i = .call k) ∨ (∃ d k, i = .lds d k) ∨ (∃ k r, i = .sts k r) := by
  cases i <;> simp [encode, encAbs22, encLdSt16]

/-- Settles O4: the row that the first word selects tells the length. -/
theorem firstWordTellsLength : Obligations.FirstWordTellsLength := by
  intro i w ws hwf henc
  obtain ⟨w', ws', hw, r, hr, hs, -, hlen⟩ := words_of_wellFormed hwf
  obtain ⟨rfl, rfl⟩ := List.cons.inj (henc.symm.trans hw)
  rw [← isTwoWord_eq_pat hr hs] at hlen
  refine ⟨hlen, ?_⟩
  rw [← encode_length_two, henc, List.length_cons, hlen]
  cases isTwoWord w <;> simp

/-- Settles O6: the decoder finds no row. -/
theorem reservedWordRefused : Obligations.ReservedWordRefused := by
  intro s w hrun hw hreserved
  have hfind : opcodeTable.find? (fun r => r.selects w) = none :=
    List.find?_eq_none.2 fun r hr => by simp [hreserved r hr]
  have hdecode : ∀ ws, decode (w :: ws) = .error (.reserved w) := fun ws => by simp only [decode, hfind]
  rw [step_runs s hrun, runInstr, fetchWords_sample, fetchWords, hw]
  cases s.progWord (s.pc + 1) <;> simp only [hdecode]

end Sys2Proof.Proofs.Encoding
end

section
/-! PROOF. The aliases (spec/30_encoding.md R114): each is a name for its parent with fixed operands. -/

namespace Sys2Proof.Proofs.Alias

open Sys2Proof.Machine Sys2Proof.Laws

/-! ### Left shifts as additions -/

/-- A left shift's result is the sum of the register with itself and the bit that enters. -/
theorem shl_eq_addResult (a : Byte) (c : Bool) : a <<< 1 ||| (BitVec.ofBool c).setWidth 8 = addResult a a c := by
  decide +revert

/-- The flags of adding a byte to itself are those of its left shift. -/
theorem shiftLeftFlags_eq_addFlags (a r x : Byte) : shiftLeftFlags a a[7] r x = addFlags a a r x := by
  have hcarry (p q : Bool) : ((p && p) || (p && !q) || (!q && p)) = p := by decide +revert
  have hover (p q : Bool) : ((p && p && !q) || (!p && !p && q)) = (q != p) := by decide +revert
  simp only [shiftLeftFlags, addFlags, hcarry, hover]

theorem shiftLeft_eq_addInto (d : Reg) (c : Bool) (s : State) : shiftLeft d c s = addInto d (s.reg d) c s := by
  simp only [shiftLeft, addInto, shiftLeftFlags_eq_addFlags, shl_eq_addResult]
  rfl

/-! ### Displacement 0 -/

theorem dispAddr_zero (p : Ptr) (s : State) : dispAddr p 0 s = s.ptr p := by simp [dispAddr]

/-- Settles O19: most aliases are their parents by definition; the others by what sets their meaning apart. -/
theorem aliasesActAsParents : Obligations.AliasesActAsParents := by
  intro i s
  cases i with
  | lsl d => exact shiftLeft_eq_addInto d false s
  | rol d => exact shiftLeft_eq_addInto d (s.flag flagC) s
  | clr d => exact congrArg (logicInto d · s) (BitVec.xor_self (x := s.reg d)).symm
  | cbr d k => exact congrArg (fun m => logicInto d (s.reg d &&& m) s) (BitVec.allOnes_sub_eq_not k)
  | ldY d => exact congrArg (loadPlain 1 2 d · s) (dispAddr_zero .y s).symm
  | ldZ d => exact congrArg (loadPlain 1 2 d · s) (dispAddr_zero .z s).symm
  | stY r => exact congrArg (storePlain 1 2 r · s) (dispAddr_zero .y s).symm
  | stZ r => exact congrArg (storePlain 1 2 r · s) (dispAddr_zero .z s).symm
  | _ => rfl

end Sys2Proof.Proofs.Alias
end

section
/-! PROOF. Words of the rules' examples (spec/40_arithmetic_logic.md to spec/44_bit_and_bit_test.md). -/

namespace Sys2Proof.Proofs.Encoding

/-- The words of an instruction that is its own parent decode to it. -/
theorem decode_of_encode_eq {i : Instr} {ws : List Word} (hw : wellFormed i = true) (hc : canonical i = i)
    (he : encode i = ws) : decode ws = .ok (i, []) := by
  simpa [hc, he] using decodeOfEncode i [] hw

/-- Settles O5: the words are those instructions' encodings. -/
theorem exampleWordsDecode : Obligations.ExampleWordsDecode := by
  refine ⟨?_, ?_, ?_, ?_, ?_, ?_, ?_, ?_⟩ <;> exact decode_of_encode_eq (by decide) (by decide) (by decide)

end Sys2Proof.Proofs.Encoding
end

section
/-! PROOF. How an arithmetic or logic instruction ends (spec/40_arithmetic_logic.md R120): it always completes, having
written its register or pair and its flags, and nothing else. -/

namespace Sys2Proof.Proofs.Arith

open Sys2Proof.Machine Sys2Proof.Laws

section
variable {ds : List Reg} {ns : List BitNo} {len cyc : Nat} {s t : State} {sreg : Byte}

/-- Registers and SREG written, then the move of pc. -/
theorem advance_only_regsFlags {regs : Vector Byte 32} (hr : KeepsRegs ds s { s with regs := regs })
    (hf : ∀ n, n ∉ ns → bitOf sreg n = bitOf s.sreg n) :
    OnlyRegsFlags ds ns len cyc s (State.advance len cyc { s with regs := regs, sreg := sreg }) where
  regs := hr
  flags := hf
  memory _ := rfl
  control := ⟨rfl, rfl, rfl, rfl⟩
  platform := ⟨fun _ => rfl, rfl, rfl, rfl, rfl, rfl, rfl, rfl⟩
  pc := by simp
  cycles := rfl

/-- A register that was written with its old value was not changed. -/
theorem onlyRegsFlags_of_same {d : Reg} (h : OnlyRegsFlags [d] ns len cyc s t) (hd : t.reg d = s.reg d) :
    OnlyRegsFlags [] ns len cyc s t :=
  { h with
    regs := fun i _ => by
      by_cases hi : i = d
      · rw [hi, hd]
      · exact h.regs i (by simpa using hi) }

theorem setPair_keepsRegs {d : Reg} {w : Word} : KeepsRegs [d, d + 1] s (s.setPair d w) := by
  intro j hj
  simp only [List.mem_cons, List.not_mem_nil, or_false, not_or] at hj
  obtain ⟨hlo, hhi⟩ := hj
  rw [reg_setPair, if_neg hhi, if_neg hlo]

/-- A register and SREG. -/
theorem writeResult_ok (cyc : Nat) (d : Reg) (v : Byte) (s : State)
    (hf : ∀ n, n ∉ ns → bitOf sreg n = bitOf s.sreg n) :
    ∃ t, writeResult cyc d v sreg s = .next t ∧ OnlyRegsFlags [d] ns 1 cyc s t ∧ t.reg d = v ∧ t.sreg = sreg :=
  ⟨_, rfl, advance_only_regsFlags ProgramMemory.setReg_keepsRegs hf, reg_setReg_self d v s, rfl⟩

/-- SREG alone. -/
theorem writeFlags_ok (s : State) (hf : ∀ n, n ∉ ns → bitOf sreg n = bitOf s.sreg n) :
    ∃ t, writeFlags sreg s = .next t ∧ OnlyRegsFlags [] ns 1 1 s t ∧ t.sreg = sreg :=
  ⟨_, rfl, advance_only_regsFlags (regs := s.regs) (fun _ _ => rfl) hf, rfl⟩

/-- A register pair and SREG. -/
theorem writePair_ok (d : Reg) (w : Word) (s : State) (hf : ∀ n, n ∉ ns → bitOf sreg n = bitOf s.sreg n) :
    ∃ t, writePair d w sreg s = .next t ∧ OnlyRegsFlags [d, d + 1] ns 1 2 s t ∧ t.pair d = w ∧ t.sreg = sreg :=
  ⟨_, rfl, advance_only_regsFlags setPair_keepsRegs hf, pair_setPair d w s, rfl⟩

end

end Sys2Proof.Proofs.Arith
end

section
/-! PROOF. Addition, subtraction and comparison of bytes (spec/40_arithmetic_logic.md R121, R122, R125 to R131, R139;
spec/41_branch.md R172, R173). -/

namespace Sys2Proof.Proofs.Arith

open Sys2Proof.Machine Sys2Proof.Laws

/-! ### Addition -/

theorem addInto_exact (d : Reg) (b : Byte) (c : Bool) (s : State) :
    ∃ t, addInto d b c s = .next t ∧ OnlyRegsFlags [d] sixFlags 1 1 s t ∧
      (t.reg d).toNat = ((s.reg d).toNat + b.toNat + c.toNat) % 256 ∧ SumFlags (s.reg d) b c t := by
  obtain ⟨t, ht, honly, hreg, hsreg⟩ :=
    writeResult_ok 1 d (addResult (s.reg d) b c) s (addFlags_keep (s.reg d) b (addResult (s.reg d) b c) s.sreg)
  exact ⟨t, ht, honly, by rw [hreg, addResult_toNat], addFlags_exact _ _ _ _ _ hsreg⟩

/-- Settles O20. -/
theorem addResultFlags : Obligations.AddResultFlags := fun d r s =>
  ⟨addInto_exact d (s.reg r) false s, addInto_exact d (s.reg r) (s.flag flagC) s⟩

/-! ### Subtraction -/

theorem subSreg_keep (a b : Byte) (c sticky : Bool) (x : Byte) (n : BitNo) (h : n ∉ sixFlags) :
    bitOf (subSreg a b c sticky x) n = bitOf x n := subFlags_keep _ _ _ _ _ n h

/-- `Rd <- a - b - c`, where `a` need not be Rd (NEG subtracts from 0). -/
theorem writeDiff_exact (d : Reg) (a b : Byte) (c sticky : Bool) (s : State) :
    ∃ t, writeResult 1 d (subResult a b c) (subSreg a b c sticky s.sreg) s = .next t ∧
      OnlyRegsFlags [d] sixFlags 1 1 s t ∧ ((t.reg d).toNat : Int) = exactDiff a b c % 256 ∧ DiffFlags a b c t ∧
      t.flag flagZ = (decide (t.reg d = 0) && (!sticky || s.flag flagZ)) := by
  obtain ⟨t, ht, honly, hreg, hsreg⟩ := writeResult_ok 1 d (subResult a b c) s (subSreg_keep a b c sticky s.sreg)
  obtain ⟨hdiff, hz⟩ := subFlags_exact _ _ _ _ _ _ hsreg
  exact ⟨t, ht, honly, by rw [hreg, subResult_toNat], hdiff, by rw [hz, hreg]; rfl⟩

/-- Without borrow Z is not sticky. -/
theorem writeDiff_plain (d : Reg) (a b : Byte) (s : State) :
    ∃ t, writeResult 1 d (subResult a b false) (subSreg a b false false s.sreg) s = .next t ∧
      OnlyRegsFlags [d] sixFlags 1 1 s t ∧ ((t.reg d).toNat : Int) = exactDiff a b false % 256 ∧
      DiffFlags a b false t ∧ t.flag flagZ = decide (t.reg d = 0) := by
  simpa only [Bool.not_false, Bool.true_or, Bool.and_true] using writeDiff_exact d a b false false s

/-- The flags of a negation are those of a subtraction from 0. -/
theorem negFlags_eq_subFlags (a x : Byte) : negFlags a (0 - a) x = subFlags 0 a (0 - a) (0 - a == 0) x := by
  have hhalf : ((0 - a)[3] || a[3]) =
      ((!(0 : Byte)[3] && a[3]) || (a[3] && (0 - a)[3]) || ((0 - a)[3] && !(0 : Byte)[3])) := by decide +revert
  have hover : (0 - a == 0x80) =
      (((0 : Byte)[7] && !a[7] && !(0 - a)[7]) || (!(0 : Byte)[7] && a[7] && (0 - a)[7])) := by decide +revert
  have hborrow : (0 - a != 0) =
      ((!(0 : Byte)[7] && a[7]) || (a[7] && (0 - a)[7]) || ((0 - a)[7] && !(0 : Byte)[7])) := by decide +revert
  simp only [negFlags, subFlags, hhalf, hover, hborrow]

/-- NEG is a subtraction from 0. -/
theorem exec_neg_eq (d : Reg) (s : State) :
    exec (.neg d) s =
      writeResult 1 d (subResult 0 (s.reg d) false) (subSreg 0 (s.reg d) false false s.sreg) s := by
  have hres : subResult 0 (s.reg d) false = 0 - s.reg d := BitVec.sub_zero _
  simp only [exec, execNeg, negFlags_eq_subFlags, subSreg, hres, Bool.not_false, Bool.true_or, Bool.and_true]

/-- Settles O22. -/
theorem subtractResultFlags : Obligations.SubtractResultFlags := by
  intro d r k s
  rw [exec_neg_eq]
  exact ⟨writeDiff_plain d (s.reg d) (s.reg r) s, writeDiff_plain d (s.reg d) k s,
    writeDiff_exact d (s.reg d) (s.reg r) (s.flag flagC) true s, writeDiff_exact d (s.reg d) k (s.flag flagC) true s,
    writeDiff_plain d 0 (s.reg d) s⟩

/-! ### Comparison -/

theorem subResult_beq_zero (a b : Byte) (c : Bool) :
    (subResult a b c == 0) = decide (exactDiff a b c % 256 = 0) := by
  rw [byte_beq_zero, decide_eq_decide, ← subResult_toNat, Int.natCast_eq_zero]

/-- A compare has the flags of the subtraction, and writes no register. -/
theorem compareWith_exact (d : Reg) (b : Byte) (c sticky : Bool) (s : State) :
    ∃ t, compareWith d b c sticky s = .next t ∧ OnlyRegsFlags [] sixFlags 1 1 s t ∧ DiffFlags (s.reg d) b c t ∧
      t.flag flagZ = (decide (exactDiff (s.reg d) b c % 256 = 0) && (!sticky || s.flag flagZ)) := by
  obtain ⟨t, ht, honly, hsreg⟩ := writeFlags_ok s (subSreg_keep (s.reg d) b c sticky s.sreg)
  obtain ⟨hdiff, hz⟩ := subFlags_exact _ _ _ _ _ _ hsreg
  exact ⟨t, ht, honly, hdiff, by rw [hz, subResult_beq_zero]; rfl⟩

/-- S is the sign of the exact signed difference: N is right unless V says that it overflowed. -/
theorem diffFlags_sign_eq {a b : Byte} {c : Bool} {t : State} (h : DiffFlags a b c t) :
    t.flag flagS = decide (a.toInt < b.toInt + c.toNat) := by
  have ha := a.isLt
  have hb := b.isLt
  have hc : c.toNat < 2 := Bool.toNat_lt c
  rw [h.sign, h.negative, h.overflow, exactDiff, byte_toInt, byte_toInt, Bool.eq_iff_iff]
  simp only [bne_iff_ne, ne_eq, decide_eq_decide, decide_eq_true_eq]
  split <;> split <;> omega

/-- A joined word read as signed: its high byte is. -/
theorem joinBytes_toInt (h l : Byte) : (joinBytes h l).toInt = 256 * h.toInt + l.toNat := BitVec.toInt_append

/-- Settles O31: the borrow of the low bytes goes into the comparison of the high ones, and Z is kept only if it was
set. -/
theorem wordCompare : Obligations.WordCompare := by
  intro dl dh rl rh s
  obtain ⟨t, ht, htonly, htdiff, htz⟩ := compareWith_exact dl (s.reg rl) false false s
  obtain ⟨u, hu, -, hudiff, huz⟩ := compareWith_exact dh (t.reg rh) (t.flag flagC) true t
  have hdh : t.reg dh = s.reg dh := htonly.regs dh List.not_mem_nil
  have hrh : t.reg rh = s.reg rh := htonly.regs rh List.not_mem_nil
  have hborrow : t.flag flagC = decide ((s.reg dl).toNat < (s.reg rl).toNat) := htdiff.borrow
  have hcarry : (t.flag flagC).toNat = if (s.reg dl).toNat < (s.reg rl).toNat then 1 else 0 := by
    rw [hborrow]
    exact apply_ite Bool.toNat _ true false
  have h1 := (s.reg dl).isLt
  have h2 := (s.reg rl).isLt
  have h3 := (s.reg dh).isLt
  have h4 := (s.reg rh).isLt
  refine ⟨t, u, ht, hu, ?_, ?_, ?_⟩
  · rw [huz, htz, hdh, hrh, exactDiff, exactDiff, hcarry, Bool.eq_iff_iff]
    simp only [Bool.not_true, Bool.not_false, Bool.false_or, Bool.true_or, Bool.and_true, Bool.and_eq_true,
      decide_eq_true_eq, ← BitVec.toNat_inj, Bool.toNat_false]
    split <;> omega
  · rw [hudiff.borrow, hdh, hrh, hcarry, joinBytes_toNat, joinBytes_toNat, decide_eq_decide]
    split <;> omega
  · rw [diffFlags_sign_eq hudiff, hdh, hrh, hcarry, joinBytes_toInt, joinBytes_toInt, decide_eq_decide]
    split <;> omega

end Sys2Proof.Proofs.Arith
end

section
/-! PROOF. ADIW and SBIW (spec/40_arithmetic_logic.md R127, R132). -/

namespace Sys2Proof.Proofs.Arith

open Sys2Proof.Machine Sys2Proof.Laws

/-- The flags that ADIW and SBIW write for the result `r`, with V and C given. -/
theorem wordFlags_exact {v c : Bool} {r : Word} {x : Byte} {t : State}
    (h : t.sreg = mergeFlags maskSVNZC (packFlags false (r[15] != v) v r[15] (r == 0) c) x) :
    t.flag flagC = c ∧ t.flag flagV = v ∧ t.flag flagN = decide (32768 ≤ r.toNat) ∧
      t.flag flagZ = decide (r.toNat = 0) ∧ t.flag flagS = (t.flag flagN != t.flag flagV) := by
  obtain ⟨hs, hv, hn, hz, hc⟩ := bitOf_merge5 false (r[15] != v) v r[15] (r == 0) c x
  simp only [State.flag, h, hs, hv, hn, hz, hc]
  simp only [bit15_eq, word_beq_zero, and_self]

section
variable (w : Word) (k : BitVec 6)

theorem addSmall_toNat : (w + k.setWidth 16).toNat = (w.toNat + k.toNat) % 65536 := by
  have := k.isLt
  rw [BitVec.toNat_add, BitVec.toNat_setWidth_of_le (by omega)]

theorem subSmall_toNat : ((w - k.setWidth 16).toNat : Int) = (w.toNat - k.toNat : Int) % 65536 := by
  have := k.isLt
  have := w.isLt
  rw [BitVec.toNat_sub, BitVec.toNat_setWidth_of_le (by omega)]
  omega

/-- Adding less than 64 carries exactly when bit 15 is lost, and overflows exactly when it appears. -/
theorem addSmall_carry_overflow :
    (!(w + k.setWidth 16)[15] && w[15]) = decide (65536 ≤ w.toNat + k.toNat) ∧
      (!w[15] && (w + k.setWidth 16)[15]) = decide (32767 < w.toInt + k.toNat) := by
  have hk := k.isLt
  have hw := w.isLt
  rw [word_toInt]
  simp only [bit15_eq, addSmall_toNat, ← decide_not, ← Bool.decide_and, decide_eq_decide]
  split <;> omega

/-- Subtracting less than 64 borrows exactly when bit 15 appears, and overflows exactly when it is lost. -/
theorem subSmall_carry_overflow :
    ((w - k.setWidth 16)[15] && !w[15]) = decide (w.toNat < k.toNat) ∧
      (w[15] && !(w - k.setWidth 16)[15]) = decide (w.toInt - k.toNat < -32768) := by
  have hk := k.isLt
  have hw := w.isLt
  have hr := subSmall_toNat w k
  rw [word_toInt]
  simp only [bit15_eq, ← decide_not, ← Bool.decide_and, decide_eq_decide]
  split <;> omega

end

/-- Settles O24. -/
theorem wordAddSubtract : Obligations.WordAddSubtract := by
  intro d k s _
  constructor
  · obtain ⟨hcarry, hover⟩ := addSmall_carry_overflow (s.pair d) k
    obtain ⟨t, ht, honly, hpair, hsreg⟩ :=
      writePair_ok d (s.pair d + k.setWidth 16) s (adiwFlags_keep (s.pair d) (s.pair d + k.setWidth 16) s.sreg)
    have hflags := wordFlags_exact hsreg
    rw [hcarry, hover, ← hpair] at hflags
    exact ⟨t, ht, honly, by rw [hpair, addSmall_toNat], hflags⟩
  · obtain ⟨hcarry, hover⟩ := subSmall_carry_overflow (s.pair d) k
    obtain ⟨t, ht, honly, hpair, hsreg⟩ :=
      writePair_ok d (s.pair d - k.setWidth 16) s (sbiwFlags_keep (s.pair d) (s.pair d - k.setWidth 16) s.sreg)
    have hflags := wordFlags_exact hsreg
    rw [hcarry, hover, ← hpair] at hflags
    exact ⟨t, ht, honly, by rw [hpair, subSmall_toNat], hflags⟩

end Sys2Proof.Proofs.Arith
end

section
/-! PROOF. The logic operations, COM, INC and DEC (spec/40_arithmetic_logic.md R123, R133 to R138, R140 to R145). -/

namespace Sys2Proof.Proofs.Arith

open Sys2Proof.Machine Sys2Proof.Laws

/-! ### Logic -/

theorem logicInto_exact (d : Reg) (r : Byte) (s : State) :
    ∃ t, logicInto d r s = .next t ∧ OnlyRegsFlags [d] fourFlags 1 1 s t ∧ LogicFlags r t ∧ t.reg d = r := by
  obtain ⟨t, ht, honly, hreg, hsreg⟩ := writeResult_ok 1 d r s (logicFlags_keep r s.sreg)
  exact ⟨t, ht, honly, logicFlags_exact _ _ _ hsreg, hreg⟩

/-- A logic operation whose result has the bits `f`. -/
theorem logicInto_bits (d : Reg) (r : Byte) (s : State) (f : BitNo → Bool) (hf : ∀ n, bitOf r n = f n) :
    ∃ t, logicInto d r s = .next t ∧ OnlyRegsFlags [d] fourFlags 1 1 s t ∧ LogicFlags (t.reg d) t ∧
      ∀ n, bitOf (t.reg d) n = f n := by
  obtain ⟨t, ht, honly, hflags, rfl⟩ := logicInto_exact d r s
  exact ⟨t, ht, honly, hflags, hf⟩

section
variable (a b : Byte) (n : BitNo)

theorem bitOf_and : bitOf (a &&& b) n = (bitOf a n && bitOf b n) := BitVec.getLsbD_and

theorem bitOf_or : bitOf (a ||| b) n = (bitOf a n || bitOf b n) := BitVec.getLsbD_or

theorem bitOf_xor : bitOf (a ^^^ b) n = (bitOf a n != bitOf b n) := BitVec.getLsbD_xor

theorem bitOf_ones_sub : bitOf (0xFF - a) n = !bitOf a n := by
  have hones : 0xFF - a = ~~~a := BitVec.allOnes_sub_eq_not a
  rw [bitOf, hones, BitVec.getLsbD_not, decide_eq_true n.isLt, Bool.true_and]
  rfl

end

/-- Settles O25: TST writes the register with its own value. -/
theorem logicResultFlags : Obligations.LogicResultFlags := by
  intro d r k s
  refine ⟨logicInto_bits d _ s _ (bitOf_and _ _), logicInto_bits d _ s _ (bitOf_and _ _),
    logicInto_bits d _ s _ (bitOf_or _ _), logicInto_bits d _ s _ (bitOf_or _ _),
    logicInto_bits d _ s _ (bitOf_xor _ _), logicInto_bits d _ s _ (bitOf_or _ _),
    logicInto_bits d _ s _ fun n => by rw [bitOf_and, bitOf_ones_sub], ?_, logicInto_exact d 0 s⟩
  obtain ⟨t, ht, honly, hflags, hreg⟩ := logicInto_exact d (s.reg d &&& s.reg d) s
  rw [BitVec.and_self] at hflags hreg
  exact ⟨t, ht, onlyRegsFlags_of_same honly hreg, hflags⟩

/-! ### Complement -/

/-- COM has the flags of a logic operation, and sets C. -/
theorem comFlags_exact {r x : Byte} {t : State} (h : t.sreg = comFlags r x) :
    LogicFlags r t ∧ t.flag flagC = true := by
  obtain ⟨hs, hv, hn, hz, hc⟩ := bitOf_merge5 false r[7] false r[7] (r == 0) true x
  have hf (n : BitNo) : t.flag n = bitOf (comFlags r x) n := by rw [State.flag, h]
  unfold comFlags at hf
  refine ⟨⟨?_, ?_, ?_, ?_⟩, (hf _).trans hc⟩
  · rw [hf, hv]
  · rw [hf, hn, bit7_eq]
  · rw [hf, hz, byte_beq_zero]
  · rw [hf, hf, hf, hs, hn, hv, Bool.bne_false]

theorem execCom_exact (d : Reg) (s : State) :
    ∃ t, execCom d s = .next t ∧ OnlyRegsFlags [d] fiveFlags 1 1 s t ∧
      (t.reg d).toNat = 255 - (s.reg d).toNat ∧ LogicFlags (t.reg d) t ∧ t.flag flagC = true := by
  obtain ⟨t, ht, honly, hreg, hsreg⟩ := writeResult_ok 1 d (0xFF - s.reg d) s (comFlags_keep (0xFF - s.reg d) s.sreg)
  have hones : 0xFF - s.reg d = ~~~s.reg d := BitVec.allOnes_sub_eq_not _
  obtain ⟨hlogic, hcarry⟩ := comFlags_exact hsreg
  rw [← hreg] at hlogic
  exact ⟨t, ht, honly, by rw [hreg, hones, BitVec.toNat_not], hlogic, hcarry⟩

/-! ### Increment and decrement -/

/-- The flags that INC and DEC write for the result `r`, with V given. -/
theorem countFlags_exact {v : Bool} {r x : Byte} {t : State}
    (h : t.sreg = mergeFlags maskSVNZ (packFlags false (r[7] != v) v r[7] (r == 0) false) x) :
    t.flag flagV = v ∧ t.flag flagN = decide (128 ≤ r.toNat) ∧ t.flag flagZ = decide (r.toNat = 0) ∧
      t.flag flagS = (t.flag flagN != t.flag flagV) := by
  obtain ⟨hs, hv, hn, hz⟩ := bitOf_merge4 false (r[7] != v) v r[7] (r == 0) false x
  simp only [State.flag, h, hs, hv, hn, hz]
  simp only [bit7_eq, byte_beq_zero, and_self]

/-- Only 127 leaves the signed range upwards. -/
theorem inc_overflow (a : Byte) : (a + 1 == 0x80) = decide (127 < a.toInt + 1) := by decide +revert

/-- Only -128 leaves the signed range downwards. -/
theorem dec_overflow (a : Byte) : (a - 1 == 0x7F) = decide (a.toInt - 1 < -128) := by decide +revert

/-- Settles O26. -/
theorem complementAndCount : Obligations.ComplementAndCount := by
  intro d s
  refine ⟨execCom_exact d s, ?_, ?_⟩
  · obtain ⟨t, ht, honly, hreg, hsreg⟩ := writeResult_ok 1 d (s.reg d + 1) s (incFlags_keep (s.reg d + 1) s.sreg)
    have hflags := countFlags_exact hsreg
    rw [inc_overflow, ← hreg] at hflags
    exact ⟨t, ht, honly, by rw [hreg, BitVec.toNat_add]; rfl, hflags⟩
  · obtain ⟨t, ht, honly, hreg, hsreg⟩ := writeResult_ok 1 d (s.reg d - 1) s (decFlags_keep (s.reg d - 1) s.sreg)
    have hflags := countFlags_exact hsreg
    rw [dec_overflow, ← hreg] at hflags
    exact ⟨t, ht, honly, by rw [hreg, BitVec.toNat_sub, Nat.add_comm]; rfl, hflags⟩

end Sys2Proof.Proofs.Arith
end

section
/-! PROOF. Multiplication (spec/40_arithmetic_logic.md R124, R147 to R152): every product fits its 16-bit pattern, and C
is the pattern's bit 15. -/

namespace Sys2Proof.Proofs.Arith

open Sys2Proof.Machine Sys2Proof.Laws

/-! ### The patterns of the products -/

theorem mulUU_toNat (a b : Byte) : (mulUU a b).toNat = a.toNat * b.toNat := by
  have hlt : a.toNat * b.toNat < 256 * 256 := Nat.mul_lt_mul'' a.isLt b.isLt
  rw [mulUU, BitVec.toNat_ofNat, Nat.mod_eq_of_lt (by omega)]

/-- A number in the signed range is what its 16-bit pattern reads as. -/
theorem ofInt_toInt {i : Int} (hlo : -32768 ≤ i) (hhi : i < 32768) : (BitVec.ofInt 16 i).toInt = i := by
  rw [BitVec.toInt_ofInt]
  exact Int.bmod_eq_of_le (by omega) (by omega)

theorem mulSS_toInt (a b : Byte) : (mulSS a b).toInt = a.toInt * b.toInt := by
  have hlo : -2 ^ 14 ≤ a.toInt * b.toInt := BitVec.le_toInt_mul_toInt
  have hhi : a.toInt * b.toInt ≤ 2 ^ 14 := BitVec.toInt_mul_toInt_le
  exact ofInt_toInt (by omega) (by omega)

theorem mulSU_toInt (a b : Byte) : (mulSU a b).toInt = a.toInt * (b.toNat : Int) := by
  have hlo : -128 ≤ a.toInt := a.le_toInt
  have hhi : a.toInt < 128 := a.toInt_lt
  have hb := b.isLt
  exact ofInt_toInt (by nlinarith) (by nlinarith)

theorem fraction_toNat (p : Word) : (fraction p).toNat = 2 * p.toNat % 65536 := by
  rw [fraction, BitVec.toNat_shiftLeft, Nat.shiftLeft_eq, Nat.mul_comm]

/-- A word is what it reads as when signed, modulo 2^16. -/
theorem toNat_eq_toInt_emod (p : Word) : (p.toNat : Int) = p.toInt % 65536 := by
  have := p.isLt
  rw [word_toInt]
  split <;> omega

theorem fraction_toNat_signed (p : Word) : ((fraction p).toNat : Int) = 2 * p.toInt % 65536 := by
  have := toNat_eq_toInt_emod p
  rw [fraction_toNat]
  omega

/-- Bit 15 is the sign. -/
theorem word_neg_iff (p : Word) : 32768 ≤ p.toNat ↔ p.toInt < 0 := by
  rw [BitVec.toInt_neg_iff]
  omega

theorem word_toNat_eq_zero_iff (p : Word) : p.toNat = 0 ↔ p.toInt = 0 := by
  rw [← BitVec.toInt_zero (w := 16), BitVec.toInt_inj, ← BitVec.toNat_inj]
  rfl

/-! ### The instructions -/

theorem writeProduct_exact (p w : Word) (s : State) :
    ∃ t, writeProduct p w s = .next t ∧ OnlyRegsFlags [0, 1] [flagZ, flagC] 1 2 s t ∧ t.pair 0 = w ∧
      t.flag flagC = decide (32768 ≤ p.toNat) ∧ t.flag flagZ = decide (w.toNat = 0) := by
  obtain ⟨t, ht, honly, hpair, hsreg⟩ := writePair_ok 0 w s (mulFlags_keep p w s.sreg)
  obtain ⟨hz, hc⟩ := mulFlags_bits p w s.sreg
  rw [← hsreg] at hz hc
  exact ⟨t, ht, honly, hpair, hc, hz⟩

/-- A signed product, and its sign in C. -/
theorem writeProduct_signed (p : Word) (s : State) :
    ∃ t, writeProduct p p s = .next t ∧ OnlyRegsFlags [0, 1] [flagZ, flagC] 1 2 s t ∧ (t.pair 0).toInt = p.toInt ∧
      t.flag flagC = decide (p.toInt < 0) ∧ t.flag flagZ = decide (p.toInt = 0) := by
  obtain ⟨t, ht, honly, hpair, hc, hz⟩ := writeProduct_exact p p s
  simp only [word_neg_iff] at hc
  simp only [word_toNat_eq_zero_iff] at hz
  exact ⟨t, ht, honly, by rw [hpair], hc, hz⟩

/-- Settles O27. -/
theorem multiplyProduct : Obligations.MultiplyProduct := by
  intro d r s
  refine ⟨?_, ?_, ?_⟩
  · rw [← mulUU_toNat]
    obtain ⟨t, ht, honly, hpair, hflags⟩ := writeProduct_exact (mulUU (s.reg d) (s.reg r)) _ s
    exact ⟨t, ht, honly, by rw [hpair], hflags⟩
  · rw [← mulSS_toInt]
    exact writeProduct_signed _ s
  · rw [← mulSU_toInt]
    exact writeProduct_signed _ s

/-- A fractional product: C from the pattern before the shift, Z from the value written. -/
theorem writeFraction_exact (p : Word) (s : State) :
    ∃ t, writeProduct p (fraction p) s = .next t ∧ OnlyRegsFlags [0, 1] [flagZ, flagC] 1 2 s t ∧
      t.pair 0 = fraction p ∧ t.flag flagC = decide (32768 ≤ p.toNat) ∧ t.flag flagZ = decide (t.pair 0 = 0) := by
  obtain ⟨t, ht, honly, hpair, hc, hz⟩ := writeProduct_exact p (fraction p) s
  rw [← word_beq_zero, ← hpair] at hz
  exact ⟨t, ht, honly, hpair, hc, hz⟩

theorem writeFraction_signed (p : Word) (s : State) :
    ∃ t, writeProduct p (fraction p) s = .next t ∧ OnlyRegsFlags [0, 1] [flagZ, flagC] 1 2 s t ∧
      ((t.pair 0).toNat : Int) = 2 * p.toInt % 65536 ∧ t.flag flagC = decide (p.toInt < 0) ∧
      t.flag flagZ = decide (t.pair 0 = 0) := by
  obtain ⟨t, ht, honly, hpair, hc, hz⟩ := writeFraction_exact p s
  simp only [word_neg_iff] at hc
  exact ⟨t, ht, honly, by rw [hpair, fraction_toNat_signed], hc, hz⟩

/-- Settles O28. -/
theorem fractionalProduct : Obligations.FractionalProduct := by
  intro d r s
  refine ⟨?_, ?_, ?_⟩
  · rw [← mulUU_toNat]
    obtain ⟨t, ht, honly, hpair, hflags⟩ := writeFraction_exact (mulUU (s.reg d) (s.reg r)) s
    exact ⟨t, ht, honly, by rw [hpair, fraction_toNat], hflags⟩
  · rw [← mulSS_toInt]
    exact writeFraction_signed _ s
  · rw [← mulSU_toInt]
    exact writeFraction_signed _ s

/-! ### Z after a fractional multiplication -/

/-- Two factors below 2^8 do not make 2^15: each would be at most 2^7. -/
theorem mul_ne_two_pow_fifteen {m n : Nat} (hm : m < 256) (hn : n < 256) : m * n ≠ 32768 := by
  intro h
  have hdvd : m ∣ 2 ^ 15 := ⟨n, h.symm⟩
  obtain ⟨i, -, rfl⟩ := (Nat.dvd_prime_pow Nat.prime_two).1 hdvd
  have hi : i < 8 := (Nat.pow_lt_pow_iff_right (by decide)).1 (show 2 ^ i < 2 ^ 8 from hm)
  have hle : 2 ^ i * n ≤ 2 ^ 7 * n := Nat.mul_le_mul_right n (Nat.pow_le_pow_right (by decide) (by omega))
  omega

/-- The pattern of a product of two numbers below 2^8 in magnitude. -/
theorem product_pattern {p : Word} {i j : Int} (hp : (p.toNat : Int) = i * j % 65536) (hi : i.natAbs < 256)
    (hj : j.natAbs < 256) : p.toNat ≠ 32768 ∧ (p.toNat = 0 → i = 0 ∨ j = 0) := by
  have hne : (i * j).natAbs ≠ 32768 := Int.natAbs_mul i j ▸ mul_ne_two_pow_fifteen hi hj
  have hlt : (i * j).natAbs < 256 * 256 := Int.natAbs_mul i j ▸ Nat.mul_lt_mul'' hi hj
  rw [← Int.mul_eq_zero]
  omega

/-- The shift loses the pattern only if it is 2^15, which no product is. -/
theorem writeFraction_zero {p : Word} {i j : Int} {s t : State} (hp : (p.toNat : Int) = i * j % 65536)
    (hi : i.natAbs < 256) (hj : j.natAbs < 256) (h : writeProduct p (fraction p) s = .next t)
    (hz : t.flag flagZ = true) : t.flag flagC = false ∧ (i = 0 ∨ j = 0) := by
  obtain ⟨hne, hzero⟩ := product_pattern hp hi hj
  obtain ⟨u, hu, -, -, huc, huz⟩ := writeProduct_exact p (fraction p) s
  obtain rfl : u = t := by simpa using hu.symm.trans h
  have hw : 2 * p.toNat % 65536 = 0 := by rwa [huz, fraction_toNat, decide_eq_true_eq] at hz
  have hp0 : p.toNat = 0 := by omega
  exact ⟨by rw [huc, hp0]; rfl, hzero hp0⟩

theorem byte_toInt_natAbs_lt (a : Byte) : a.toInt.natAbs < 256 := by decide +revert

theorem byte_eq_zero_of_toNat {a : Byte} (h : (a.toNat : Int) = 0) : a = 0 :=
  BitVec.eq_of_toNat_eq (Int.natCast_eq_zero.1 h)

/-- Settles O29. -/
theorem fractionalZeroMeansZero : Obligations.FractionalZeroMeansZero := by
  rintro d r s t i (rfl | rfl | rfl) h hz
  · have hp : ((mulUU (s.reg d) (s.reg r)).toNat : Int) = ((s.reg d).toNat : Int) * (s.reg r).toNat % 65536 := by
      rw [mulUU, BitVec.toNat_ofNat]
      rfl
    obtain ⟨hc, h0⟩ := writeFraction_zero hp (s.reg d).isLt (s.reg r).isLt h hz
    exact ⟨hc, h0.imp byte_eq_zero_of_toNat byte_eq_zero_of_toNat⟩
  · have hp : ((mulSS (s.reg d) (s.reg r)).toNat : Int) = (s.reg d).toInt * (s.reg r).toInt % 65536 := by
      rw [toNat_eq_toInt_emod, mulSS_toInt]
    obtain ⟨hc, h0⟩ := writeFraction_zero hp (byte_toInt_natAbs_lt _) (byte_toInt_natAbs_lt _) h hz
    exact ⟨hc, h0.imp BitVec.eq_of_toInt_eq BitVec.eq_of_toInt_eq⟩
  · have hp : ((mulSU (s.reg d) (s.reg r)).toNat : Int) = (s.reg d).toInt * ((s.reg r).toNat : Int) % 65536 := by
      rw [toNat_eq_toInt_emod, mulSU_toInt]
    obtain ⟨hc, h0⟩ := writeFraction_zero hp (byte_toInt_natAbs_lt _) (s.reg r).isLt h hz
    exact ⟨hc, h0.imp BitVec.eq_of_toInt_eq byte_eq_zero_of_toNat⟩

end Sys2Proof.Proofs.Arith
end

section
/-! PROOF. Compares, jumps, branches and skips (spec/41_branch.md R160 to R165, R171 to R198). A compare writes flags
alone, those of the subtraction; the others end in a `jump`, which moves pc and nothing else. -/

namespace Sys2Proof.Proofs.Branch

open Sys2Proof.Machine Sys2Proof.Laws Sys2Proof.Proofs.Arith

/-! ### Compares -/

/-- A byte difference is 0 modulo 256 only between equal bytes. -/
theorem exactDiff_emod_eq_zero_iff (a b : Byte) : exactDiff a b false % 256 = 0 ↔ a = b := by
  have ha := a.isLt
  have hb := b.isLt
  rw [exactDiff, Bool.toNat_false, ← BitVec.toNat_inj]
  omega

/-- Without borrow Z says that the operands are equal. -/
theorem compareWith_plain (d : Reg) (b : Byte) (s : State) :
    ∃ t, compareWith d b false false s = .next t ∧ OnlyRegsFlags [] sixFlags 1 1 s t ∧
      DiffFlags (s.reg d) b false t ∧ t.flag flagZ = decide (s.reg d = b) := by
  simpa only [exactDiff_emod_eq_zero_iff, Bool.not_false, Bool.true_or, Bool.and_true] using
    compareWith_exact d b false false s

/-- Settles O23. -/
theorem compareFlags : Obligations.CompareFlags := fun d r k s =>
  ⟨compareWith_plain d (s.reg r) s, compareWith_exact d (s.reg r) (s.flag flagC) true s, compareWith_plain d k s⟩

/-! ### Jumps -/

section
variable {s : State} {c : Bool} {P : Prop} [Decidable P]

/-- A jump changes pc and the cycle total alone. -/
theorem jump_onlyJumps (w : Word) (cyc : Nat) (s : State) : OnlyJumps w cyc s (s.jump w cyc) where
  regs _ _ := rfl
  flags _ _ := rfl
  memory _ := rfl
  control := ⟨rfl, rfl, rfl, rfl⟩
  platform := ⟨fun _ => rfl, rfl, rfl, rfl, rfl, rfl, rfl, rfl⟩
  pc := rfl
  cycles := rfl

/-- A conditional branch, its condition read as a proposition. -/
theorem branchIf_exact (hc : c = true ↔ P) (k : BitVec 7) (s : State) :
    ∃ t, branchIf c k s = .next t ∧ OnlyJumps t.pc (if P then 2 else 1) s t ∧
      t.pc = if P then relTarget 7 k s.pc else s.pc + 1 := by
  by_cases h : P
  · rw [hc.2 h, if_pos h, if_pos h]
    exact ⟨_, rfl, jump_onlyJumps .., rfl⟩
  · rw [Bool.eq_false_iff.2 (mt hc.1 h), if_neg h, if_neg h]
    exact ⟨_, rfl, jump_onlyJumps .., rfl⟩

/-- A skip, its condition read as a proposition, where there is a word to look at. -/
theorem skip_exact (hc : c = true ↔ P) {n : Word} (hn : s.progWord (s.pc + 1) = some n) :
    ∃ t cyc, skip c s = .next t ∧ OnlyJumps t.pc cyc s t ∧
      t.pc = (if P then (if isTwoWord n then s.pc + 3 else s.pc + 2) else s.pc + 1) ∧
      cyc = (if P then (if isTwoWord n then 3 else 2) else 1) := by
  rw [skip_ok c s n hn]
  by_cases h : P
  · rw [hc.2 h, if_pos h, if_pos h]
    cases isTwoWord n
    · exact ⟨_, _, rfl, jump_onlyJumps .., rfl, rfl⟩
    · exact ⟨_, _, rfl, jump_onlyJumps .., rfl, rfl⟩
  · rw [Bool.eq_false_iff.2 (mt hc.1 h), if_neg h, if_neg h]
    exact ⟨_, _, rfl, jump_onlyJumps .., rfl, rfl⟩

end

/-- Settles O32. -/
theorem jumpTargets : Obligations.JumpTargets := fun s =>
  ⟨fun k => ⟨_, rfl, jump_onlyJumps .., relTarget_toNat 12 (by decide) k s.pc⟩,
    fun k => ⟨_, rfl, jump_onlyJumps .., BitVec.extractLsb'_toNat 0 16 k⟩,
    ⟨_, rfl, jump_onlyJumps .., joinBytes_toNat (s.reg 31) (s.reg 30)⟩⟩

/-! ### Conditional branches -/

/-- Settles O38: each spelling is `branchIf` on its flag's being as it wants. -/
theorem statusBranches : Obligations.StatusBranches := by
  intro s k i sb want hm
  have hexec : exec i s = branchIf (s.flag sb == want) k s := by
    fin_cases hm <;> simp only [beq_true, beq_false] <;> rfl
  obtain ⟨t, ht, honly, hpc⟩ := branchIf_exact (beq_iff_eq (a := s.flag sb) (b := want)) k s
  refine ⟨t, hexec.trans ht, honly, ?_⟩
  rw [hpc]
  split
  · exact relTarget_toNat 7 (by decide) k s.pc
  · simp

/-- Settles O30: Z, C and S after CP say equal, unsigned lower and signed lower, and each branch tests one of them. -/
theorem compareThenBranch : Obligations.CompareThenBranch := by
  intro d r k s
  obtain ⟨t, ht, -, hdiff, hz⟩ := compareWith_plain d (s.reg r) s
  have hc : t.flag flagC = decide ((s.reg d).toNat < (s.reg r).toNat) := hdiff.borrow
  have hs : t.flag flagS = decide ((s.reg d).toInt < (s.reg r).toInt) := by simpa using diffFlags_sign_eq hdiff
  have hbranch (c : Bool) {P : Prop} [Decidable P] (h : c = true ↔ P) :
      ∃ u, branchIf c k t = .next u ∧ u.pc = if P then relTarget 7 k t.pc else t.pc + 1 :=
    (branchIf_exact h k t).imp fun _ ⟨hu, _, hpc⟩ => ⟨hu, hpc⟩
  exact ⟨t, ht, hbranch (t.flag flagZ) (by simp [hz]), hbranch (!t.flag flagZ) (by simp [hz]),
    hbranch (t.flag flagC) (by simp [hc]), hbranch (!t.flag flagC) (by simp [hc]),
    hbranch (t.flag flagS) (by simp [hs]), hbranch (!t.flag flagS) (by simp [hs])⟩

/-! ### Skips -/

/-- Settles O36. -/
theorem registerSkips : Obligations.RegisterSkips := fun _ _ hn =>
  ⟨fun _ _ => skip_exact beq_iff_eq hn, fun _ _ => skip_exact beq_iff_eq hn, fun _ _ => skip_exact beq_iff_eq hn⟩

/-- Settles O37: the read leaves pc and program memory as they were, and the skip goes on from there. -/
theorem ioSkips : Obligations.IoSkips := by
  intro s n a b hn
  have hdev : region s.par (ioBitAddr a) = .device := region_ioBitAddr s.par a
  obtain ⟨v, u, hload, hl⟩ := loadByte_ok (ioBitAddr a) s (by simp [hdev])
  have hpc : u.pc = s.pc := by rw [Loads_state hl]
  have hword : u.progWord (u.pc + 1) = some n := by rw [← hn, hpc, Loads_state hl]; rfl
  have hskip (want : Bool) : skipIo (ioBitAddr a) b want s = skip (bitOf v b == want) u := by
    simp only [skipIo, hload]
  rw [← hpc]
  exact ⟨v, u, hl, hdev, by rw [exec, execSbic, hskip]; exact skip_exact beq_iff_eq hword,
    by rw [exec, execSbis, hskip]; exact skip_exact beq_iff_eq hword⟩

/-! ### The end of a run -/

/-- What is fetched begins with the word at pc. -/
theorem fetchWords_of_progWord {s : State} {w : Word} (h : s.progWord s.pc = some w) :
    ∃ rest, fetchWords s = w :: rest := by
  unfold fetchWords
  rw [h]
  cases s.progWord (s.pc + 1)
  · exact ⟨_, rfl⟩
  · exact ⟨_, rfl⟩

/-- `RJMP -1` jumps to itself. -/
theorem relTarget_minus_one (pc : Word) : relTarget 12 0xFFF#12 pc = pc := by
  have hk : (0xFFF#12).signExtend 16 = (-1 : Word) := by decide
  rw [relTarget, hk, BitVec.add_assoc]
  exact BitVec.add_zero pc

/-- Settles O15: the step fetches `RJMP -1`, clears the latch and jumps to where it is. -/
theorem endOfRunFixedPoint : Obligations.EndOfRunFixedPoint := by
  intro s hin hreset hawake hI hword
  have hrun : s.RunsInstruction := ⟨by rw [sample_of_inputs_nil s hin, hreset], hawake, .inl hI⟩
  obtain ⟨rest, hfetch⟩ := fetchWords_of_progWord hword
  have hdecode : decode (fetchWords s) = .ok (.rjmp 0xFFF#12, rest) := by
    rw [hfetch]
    exact Encoding.decodeOfEncode (.rjmp 0xFFF#12) rest (by decide)
  rw [Effects.step_exec hin hrun hdecode, exec, execRjmp, relTarget_minus_one]
  rfl

end Sys2Proof.Proofs.Branch
end

section
/-! PROOF. Microcontroller control (spec/42_mcu_control.md R210, R211). -/

namespace Sys2Proof.Proofs.Control

open Sys2Proof.Machine

/-- SLEEP sets the sleep bit where the platform enables sleep, and does no more than NOP where it does not. -/
theorem execSleep_eq (s : State) :
    execSleep s = .next ((s.setAsleep (s.pins.sleepEnabled || s.asleep)).advance 1 1) := by
  cases henabled : s.pins.sleepEnabled with
  | true => rw [execSleep, if_pos henabled, Bool.true_or]
  | false =>
    rw [execSleep, if_neg (Bool.eq_false_iff.1 henabled), Bool.false_or]
    rfl

/-- Settles O39. -/
theorem nopAndSleep : Obligations.NopAndSleep := fun s => ⟨rfl, execSleep_eq s⟩

end Sys2Proof.Proofs.Control
end

section
/-! PROOF. The instructions that move a value between registers (spec/40_arithmetic_logic.md R146,
spec/43_data_transfer.md R218 to R220, spec/44_bit_and_bit_test.md R274), each a write of its destination and then the
move of pc; and SPM, which has no meaning (spec/43_data_transfer.md R251). -/

namespace Sys2Proof.Proofs.Moves

open Sys2Proof.Machine Sys2Proof.Laws

/-- A register written and pc moved: no flag, and no other register. -/
theorem setReg_advance (d : Reg) (v : Byte) (s : State) :
    OnlyRegsFlags [d] [] 1 1 s ((s.setReg d v).advance 1 1) ∧ ((s.setReg d v).advance 1 1).reg d = v :=
  ⟨ProgramMemory.advance_only_regs 1 1 ProgramMemory.setReg_keepsRegs, reg_setReg_self d v s⟩

/-- A byte with its nibbles exchanged. -/
theorem swapNibbles_toNat (v : Byte) :
    (v.extractLsb' 0 4 ++ v.extractLsb' 4 4).toNat = 16 * (v.toNat % 16) + v.toNat / 16 := by
  have := v.isLt
  rw [BitVec.toNat_append, ← Nat.shiftLeft_add_eq_or_of_lt (BitVec.isLt _), Nat.shiftLeft_eq,
    BitVec.extractLsb'_toNat, BitVec.extractLsb'_toNat, Nat.shiftRight_eq_div_pow, Nat.shiftRight_eq_div_pow]
  omega

/-- A pair holds a joined word where its two registers hold the two bytes. -/
theorem reg_setPair_joinBytes (d : Reg) (h l : Byte) (s : State) :
    (s.setPair d (joinBytes h l)).reg d = l ∧ (s.setPair d (joinBytes h l)).reg (d + 1) = h := by
  have hne : d ≠ d + 1 := by decide +revert
  rw [reg_setPair, reg_setPair, if_neg hne, if_pos rfl, if_pos rfl, lowByte_joinBytes, highByte_joinBytes]
  exact ⟨rfl, rfl⟩

/-- Settles O40: one register written, or the pair of MOVW. -/
theorem registerMoves : Obligations.RegisterMoves := by
  intro d r k s
  refine ⟨⟨_, rfl, setReg_advance d _ s⟩, fun _ _ => ?movw, ⟨_, rfl, setReg_advance d k s⟩,
    ⟨_, rfl, setReg_advance d 0xFF s⟩, ?swap⟩
  case movw =>
    exact ⟨_, rfl, ProgramMemory.advance_only_regs 1 1 Arith.setPair_keepsRegs, reg_setPair_joinBytes d _ _ s⟩
  case swap =>
    obtain ⟨honly, hd⟩ := setReg_advance d ((s.reg d).extractLsb' 0 4 ++ (s.reg d).extractLsb' 4 4) s
    exact ⟨_, rfl, honly, by rw [hd, swapNibbles_toNat]⟩

/-- Settles O50. -/
theorem spmRefused : Obligations.SpmRefused := fun _ => rfl

end Sys2Proof.Proofs.Moves
end

section
/-! PROOF. Loads and stores that move their pointer (spec/43_data_transfer.md R215, R216). Each is one access of the data
space, then registers written, then the move of pc. What is written splits along the open cases U3 to U5 of
spec/93_implementation_defined.md: the instruction's register may be a half of the pointer, and so may the byte
addressed. -/

namespace Sys2Proof.Proofs.PointerUpdate

open Sys2Proof.Machine Sys2Proof.Laws

/-! ### What is written, by the open cases -/

section
variable {p : Ptr} {d r : Reg} {a new : Word} {v : Byte} {s t : State}

theorem isHalf_iff : isHalf p d = true ↔ d = p.lo ∨ d = p.hi := by
  simp only [isHalf, Bool.or_eq_true, beq_iff_eq]

theorem isHalfAddr_iff : isHalfAddr p a = true ↔ a.toNat = p.lo.val ∨ a.toNat = p.hi.val := by
  simp only [isHalfAddr, Bool.or_eq_true, beq_iff_eq]

/-- The two halves are two registers. -/
theorem lo_val_ne_hi_val : p.lo.val ≠ p.hi.val := by
  cases p
  all_goals decide

theorem loadedInto_half (hd : d = p.lo ∨ d = p.hi) : loadedInto p d a new v t = t.freePtr p := by
  rw [loadedInto, if_pos (isHalf_iff.2 hd)]

theorem loadedInto_halfAddr (hd : ¬(d = p.lo ∨ d = p.hi)) (ha : a.toNat = p.lo.val ∨ a.toNat = p.hi.val) :
    loadedInto p d a new v t = ((t.setReg d t.freeByte).setPtr p new).useFree := by
  rw [loadedInto, if_neg (mt isHalf_iff.1 hd), if_pos (isHalfAddr_iff.2 ha)]

theorem loadedInto_outside (hd : ¬(d = p.lo ∨ d = p.hi)) (ha : ¬(a.toNat = p.lo.val ∨ a.toNat = p.hi.val)) :
    loadedInto p d a new v t = (t.setReg d v).setPtr p new := by
  rw [loadedInto, if_neg (mt isHalf_iff.1 hd), if_neg (mt isHalfAddr_iff.1 ha)]

theorem storedByte_half (hr : r = p.lo ∨ r = p.hi) : storedByte p r s = (s.freeByte, s.useFree) := by
  rw [storedByte, if_pos (isHalf_iff.2 hr)]

theorem storedByte_outside (hr : ¬(r = p.lo ∨ r = p.hi)) : storedByte p r s = (s.reg r, s) := by
  rw [storedByte, if_neg (mt isHalf_iff.1 hr)]

/-- Choosing the byte to store changes no more than the count of free values. -/
theorem storedByte_state : ∃ n, (storedByte p r s).2 = { s with freeCount := s.freeCount + n } := by
  unfold storedByte
  split
  · exact ⟨1, rfl⟩
  · exact ⟨0, rfl⟩

theorem storedPtr_lo (ha : a.toNat = p.lo.val) :
    storedPtr p a new t = (t.setPtr p (joinBytes (highByte new) t.freeByte)).useFree := by
  rw [storedPtr, if_pos ha]

theorem storedPtr_hi (ha : a.toNat = p.hi.val) :
    storedPtr p a new t = (t.setPtr p (joinBytes t.freeByte (lowByte new))).useFree := by
  rw [storedPtr, if_neg (ha ▸ lo_val_ne_hi_val.symm), if_pos ha]

theorem storedPtr_outside (hlo : a.toNat ≠ p.lo.val) (hhi : a.toNat ≠ p.hi.val) :
    storedPtr p a new t = t.setPtr p new := by
  rw [storedPtr, if_neg hlo, if_neg hhi]

/-- A pointer written from two bytes. -/
theorem setPtr_joinBytes (h l : Byte) :
    t.setPtr p (joinBytes h l) = { t with regs := (t.regs.set p.lo l).set p.hi h } := by
  rw [State.setPtr, highByte_joinBytes, lowByte_joinBytes]
  rfl

/-! ### The access, then the registers and pc -/

theorem loadedInto_pc : (loadedInto p d a new v t).pc = t.pc := by
  unfold loadedInto
  split
  · rfl
  · split
    · rfl
    · rfl

theorem storedPtr_pc : (storedPtr p a new t).pc = t.pc := by
  unfold storedPtr
  split
  · rfl
  · split
    · rfl
    · rfl

/-- One word on is a jump to the next word. -/
theorem advance_eq_jump {pc : Word} (h : t.pc = pc) (cyc : Nat) : t.advance 1 cyc = t.jump (pc + 1) cyc := by
  rw [← h]
  rfl

/-- A load through an updated pointer, where the byte addressed can be read. -/
theorem loadUpdate_of_loadByte (h : loadByte a s = .ok (v, t)) :
    loadUpdate p d a new s = .next ((loadedInto p d a new v t).jump (s.pc + 1) 2) := by
  obtain ⟨-, hl⟩ := loadByte_inv a s v t h
  have hpc : (loadedInto p d a new v t).pc = s.pc := by rw [loadedInto_pc, Loads_state hl]
  rw [loadUpdate, h, ← advance_eq_jump hpc]

/-- A store through an updated pointer, where the byte addressed can be written. -/
theorem storeUpdate_of_storeByte (h : storeByte a (storedByte p r s).1 (storedByte p r s).2 = .ok t) :
    storeUpdate p r a new s = .next ((storedPtr p a new t).jump (s.pc + 1) 2) := by
  obtain ⟨-, hs⟩ := storeByte_inv _ _ _ _ h
  obtain ⟨n, hn⟩ := storedByte_state (p := p) (r := r) (s := s)
  have hpc : (storedPtr p a new t).pc = s.pc := by rw [storedPtr_pc, hs.pc, hn]
  rw [storeUpdate, h, ← advance_eq_jump hpc]
  rfl

/-! ### Outside the pointer -/

theorem loadUpdate_outside (h : region s.par a ≠ .unmapped) (hd : ¬(d = p.lo ∨ d = p.hi))
    (ha : ¬(a.toNat = p.lo.val ∨ a.toNat = p.hi.val)) :
    ∃ v u, Loads a s v u ∧ loadUpdate p d a new s = .next { u with
      regs := ((u.regs.set d v).set p.lo (lowByte new)).set p.hi (highByte new)
      pc := s.pc + 1
      cycles := u.cycles + 2 } := by
  obtain ⟨v, u, hu, ld⟩ := loadByte_ok a s h
  refine ⟨v, u, ld, ?_⟩
  rw [loadUpdate_of_loadByte hu, loadedInto_outside hd ha]
  rfl

/-- U4 where the register is a half: the byte stored, by the rule or free, is that of `storedByte`. -/
theorem storeUpdate_address_outside (h : region s.par a ≠ .unmapped) (hlo : a.toNat ≠ p.lo.val)
    (hhi : a.toNat ≠ p.hi.val) :
    ∃ u, Stores a (storedByte p r s).1 (storedByte p r s).2 u ∧ storeUpdate p r a new s = .next { u with
      regs := (u.regs.set p.lo (lowByte new)).set p.hi (highByte new)
      pc := s.pc + 1
      cycles := u.cycles + 2 } := by
  have h' : region (storedByte p r s).2.par a ≠ .unmapped := by rwa [Stack.storedByte_par]
  obtain ⟨u, hu, st⟩ := storeByte_ok a (storedByte p r s).1 (storedByte p r s).2 h'
  refine ⟨u, st, ?_⟩
  rw [storeUpdate_of_storeByte hu, storedPtr_outside hlo hhi]
  rfl

/-! ### Over the pointer -/

theorem loadByte_reg {i : Reg} (h : a.toNat = i.val) : loadByte a s = .ok (s.reg i, s) := by
  simp only [loadByte, region_reg s.par a i h]

theorem storeByte_reg {i : Reg} (h : a.toNat = i.val) : storeByte a v s = .ok (s.setReg i v) := by
  simp only [storeByte, region_reg s.par a i h]

/-- U3: both halves are free. -/
theorem loadUpdate_half (h : region s.par a ≠ .unmapped) (hd : d = p.lo ∨ d = p.hi) :
    ∃ v u h l, Loads a s v u ∧ loadUpdate p d a new s = .next { u with
      regs := (u.regs.set p.lo l).set p.hi h
      freeCount := u.freeCount + 2
      pc := s.pc + 1
      cycles := u.cycles + 2 } := by
  obtain ⟨v, u, hu, ld⟩ := loadByte_ok a s h
  refine ⟨v, u, u.useFree.freeByte, u.freeByte, ld, ?_⟩
  rw [loadUpdate_of_loadByte hu, loadedInto_half hd, State.freePtr, setPtr_joinBytes]
  rfl

/-- U5, a load: the byte is read from a register, so nothing else is left behind. -/
theorem loadUpdate_halfAddr (hd : ¬(d = p.lo ∨ d = p.hi)) (ha : a.toNat = p.lo.val ∨ a.toNat = p.hi.val) :
    ∃ b, loadUpdate p d a new s = .next { s with
      regs := ((s.regs.set d b).set p.lo (lowByte new)).set p.hi (highByte new)
      freeCount := s.freeCount + 1
      pc := s.pc + 1
      cycles := s.cycles + 2 } := by
  obtain ⟨i, hi⟩ : ∃ i : Reg, a.toNat = i.val := ha.elim (fun h => ⟨_, h⟩) (fun h => ⟨_, h⟩)
  refine ⟨s.freeByte, ?_⟩
  rw [loadUpdate_of_loadByte (loadByte_reg hi), loadedInto_halfAddr hd ha]
  rfl

/-- U5, a store to the low half: it is free, and overwrites the byte stored. -/
theorem storeUpdate_lo (ha : a.toNat = p.lo.val) :
    ∃ b n, storeUpdate p r a new s = .next { s with
      regs := (s.regs.set p.lo b).set p.hi (highByte new)
      freeCount := s.freeCount + n
      pc := s.pc + 1
      cycles := s.cycles + 2 } := by
  obtain ⟨n, hn⟩ := storedByte_state (p := p) (r := r) (s := s)
  refine ⟨(storedByte p r s).2.freeByte, n + 1, ?_⟩
  rw [storeUpdate_of_storeByte (storeByte_reg ha), storedPtr_lo ha, setPtr_joinBytes, setReg_regs, Vector.set_set, hn]
  rfl

/-- U5, a store to the high half. -/
theorem storeUpdate_hi (ha : a.toNat = p.hi.val) :
    ∃ b n, storeUpdate p r a new s = .next { s with
      regs := (s.regs.set p.lo (lowByte new)).set p.hi b
      freeCount := s.freeCount + n
      pc := s.pc + 1
      cycles := s.cycles + 2 } := by
  obtain ⟨n, hn⟩ := storedByte_state (p := p) (r := r) (s := s)
  refine ⟨(storedByte p r s).2.freeByte, n + 1, ?_⟩
  rw [storeUpdate_of_storeByte (storeByte_reg ha), storedPtr_hi ha, setPtr_joinBytes, setReg_regs,
    Vector.set_comm _ _ lo_val_ne_hi_val.symm, Vector.set_set, hn]
  rfl

end

/-! ### The instructions -/

/-- Settles O42: each row is a load through its pointer. -/
theorem loadsUpdatingPointer : Obligations.LoadsUpdatingPointer := by
  intro d s i p a new hm h hlo hhi halo hahi
  have hi : exec i s = loadUpdate p d a new s := by
    fin_cases hm
    all_goals rfl
  rw [hi]
  exact loadUpdate_outside h (not_or.2 ⟨hlo, hhi⟩) (not_or.2 ⟨halo, hahi⟩)

/-- Settles O44: each row is a store through its pointer, of the register's byte. -/
theorem storesUpdatingPointer : Obligations.StoresUpdatingPointer := by
  intro r s i p a new hm h hlo hhi halo hahi
  have hi : exec i s = storeUpdate p r a new s := by
    fin_cases hm
    all_goals rfl
  obtain ⟨u, hu⟩ := storeUpdate_address_outside (r := r) (new := new) h halo hahi
  rw [storedByte_outside (not_or.2 ⟨hlo, hhi⟩), ← hi] at hu
  exact ⟨u, hu⟩

/-- Settles O45: U3, U5 for the loads, U4, and U5 for the stores. -/
theorem ownPointerStaysOpen : Obligations.OwnPointerStaysOpen := by
  intro d s ld st p a new hm h
  obtain ⟨hld, hst⟩ : exec ld s = loadUpdate p d a new s ∧ exec st s = storeUpdate p d a new s := by
    fin_cases hm
    all_goals exact ⟨rfl, rfl⟩
  rw [hld, hst]
  refine ⟨loadUpdate_half h, fun hlo hhi => loadUpdate_halfAddr (not_or.2 ⟨hlo, hhi⟩), fun hd halo hahi => ?u4,
    storeUpdate_lo, storeUpdate_hi⟩
  case u4 =>
    obtain ⟨u, hu⟩ := storeUpdate_address_outside (r := d) (new := new) h halo hahi
    rw [storedByte_half hd] at hu
    exact ⟨s.freeByte, u, hu⟩

end Sys2Proof.Proofs.PointerUpdate
end

section
/-! PROOF. The shifts and rotates (spec/44_bit_and_bit_test.md R265, R269 to R273): the byte each leaves, its flags, and
a rotate as one turn of the nine bits that C and the register are together. -/

namespace Sys2Proof.Proofs.Shift

open Sys2Proof.Machine Sys2Proof.Laws

/-! ### Left -/

/-- A left shift's flags are at once those of a shift and those of the sum of the register with itself. -/
theorem shiftLeft_exact (d : Reg) (c : Bool) (s : State) :
    ∃ t, shiftLeft d c s = .next t ∧ OnlyRegsFlags [d] sixFlags 1 1 s t ∧
      t.reg d = s.reg d <<< 1 ||| (BitVec.ofBool c).setWidth 8 ∧ SumFlags (s.reg d) (s.reg d) c t ∧
      ShiftFlags (t.reg d) (bitOf (s.reg d) 7) t ∧ t.flag flagH = bitOf (s.reg d) 3 := by
  obtain ⟨t, ht, honly, hreg, hsreg⟩ := Arith.writeResult_ok 1 d (s.reg d <<< 1 ||| (BitVec.ofBool c).setWidth 8) s
    (shiftLeftFlags_keep (s.reg d) (s.reg d)[7] (s.reg d <<< 1 ||| (BitVec.ofBool c).setWidth 8) s.sreg)
  have hshift := shiftLeftFlags_exact _ _ _ _ _ hsreg
  rw [← hreg] at hshift
  rw [Alias.shiftLeftFlags_eq_addFlags, Alias.shl_eq_addResult] at hsreg
  exact ⟨t, ht, honly, hreg, addFlags_exact _ _ _ _ _ hsreg, hshift⟩

/-- Twice the byte, with the bit that enters below it. -/
theorem shl_toNat (a : Byte) (c : Bool) :
    (a <<< 1 ||| (BitVec.ofBool c).setWidth 8).toNat = (2 * a.toNat + c.toNat) % 256 := by
  rw [Alias.shl_eq_addResult, addResult_toNat, Nat.two_mul]

/-- Settles O21. -/
theorem leftShiftsDouble : Obligations.LeftShiftsDouble := by
  intro d s
  obtain ⟨t, ht, honly, hreg, hflags⟩ := shiftLeft_exact d false s
  obtain ⟨u, hu, huonly, hureg, huflags⟩ := shiftLeft_exact d (s.flag flagC) s
  exact ⟨⟨t, ht, honly, by rw [hreg, shl_toNat]; rfl, hflags⟩, ⟨u, hu, huonly, by rw [hureg, shl_toNat], huflags⟩⟩

/-! ### Right -/

/-- A right shift completes with its bits and its flags. -/
theorem shiftRight_exact (d : Reg) (c : Bool) (s : State) :
    ∃ t, shiftRight d c s = .next t ∧ OnlyRegsFlags [d] fiveFlags 1 1 s t ∧
      t.reg d = BitVec.ofBool c ++ (s.reg d).extractLsb' 1 7 ∧ ShiftFlags (t.reg d) (bitOf (s.reg d) 0) t := by
  obtain ⟨t, ht, honly, hreg, hsreg⟩ := Arith.writeResult_ok 1 d (BitVec.ofBool c ++ (s.reg d).extractLsb' 1 7) s
    (shiftRightFlags_keep (s.reg d)[0] (BitVec.ofBool c ++ (s.reg d).extractLsb' 1 7) s.sreg)
  have hshift := shiftRightFlags_exact _ _ _ _ hsreg
  rw [← hreg] at hshift
  exact ⟨t, ht, honly, hreg, hshift⟩

/-- Half of the byte, with the bit that enters as its bit 7. -/
theorem shr_toNat (a : Byte) (c : Bool) :
    (BitVec.ofBool c ++ a.extractLsb' 1 7).toNat = a.toNat / 2 + 128 * c.toNat := by
  decide +revert

/-- With the sign entering, half of the signed value, rounded down. -/
theorem shr_sign_toInt (a : Byte) : (BitVec.ofBool (bitOf a 7) ++ a.extractLsb' 1 7).toInt = a.toInt / 2 := by
  decide +revert

/-- Settles O54. -/
theorem rightShiftsHalve : Obligations.RightShiftsHalve := by
  intro d s
  obtain ⟨t, ht, honly, hreg, hflags⟩ := shiftRight_exact d false s
  obtain ⟨u, hu, huonly, hureg, huflags⟩ := shiftRight_exact d (s.flag flagC) s
  obtain ⟨w, hw, hwonly, hwreg, hwflags⟩ := shiftRight_exact d (bitOf (s.reg d) 7) s
  exact ⟨⟨t, ht, honly, by rw [hreg, shr_toNat]; rfl, hflags⟩, ⟨u, hu, huonly, by rw [hureg, shr_toNat], huflags⟩,
    ⟨w, hw, hwonly, by rw [hwreg]; exact shr_sign_toInt _, hwflags⟩⟩

/-! ### Nine rotates -/

/-- C and the register `d` as one ring of nine bits, C above bit 7. -/
def ring (d : Reg) (s : State) : BitVec 9 := BitVec.ofBool (s.flag flagC) ++ s.reg d

theorem setWidth_ring (d : Reg) (s : State) : (ring d s).setWidth 8 = s.reg d := BitVec.setWidth_append_eq_right

theorem msb_ring (d : Reg) (s : State) : (ring d s).msb = s.flag flagC :=
  (congrArg BitVec.msb (BitVec.ofBool_append ..)).trans (BitVec.msb_cons ..)

/-- The ring holds the register and C, and nothing else. -/
theorem ring_inj {d : Reg} {s t : State} (h : ring d t = ring d s) :
    t.reg d = s.reg d ∧ t.flag flagC = s.flag flagC :=
  ⟨by rw [← setWidth_ring, h, setWidth_ring], by rw [← msb_ring d t, h, msb_ring]⟩

/-- `i` turns the ring of `d` by `turn`, and writes no other register. -/
def Turns (i : Instr) (d : Reg) (turn : BitVec 9 → BitVec 9) : Prop :=
  ∀ s t : State, exec i s = .next t → KeepsRegs [d] s t ∧ ring d t = turn (ring d s)

/-- A left shift that takes in C moves each of the nine bits one place up, the topmost to the bottom. -/
theorem shl_ring (c : Bool) (a : Byte) :
    BitVec.ofBool (bitOf a 7) ++ (a <<< 1 ||| (BitVec.ofBool c).setWidth 8) = (BitVec.ofBool c ++ a).rotateLeft 1 := by
  decide +revert

/-- A right shift that takes in C moves each of the nine bits one place down, the lowest to the top. -/
theorem shr_ring (c : Bool) (a : Byte) :
    BitVec.ofBool (bitOf a 0) ++ (BitVec.ofBool c ++ a.extractLsb' 1 7) = (BitVec.ofBool c ++ a).rotateRight 1 := by
  decide +revert

theorem rol_turns (d : Reg) : Turns (.rol d) d (·.rotateLeft 1) := by
  intro s t h
  obtain ⟨u, hu, honly, hreg, -, hflags, -⟩ := shiftLeft_exact d (s.flag flagC) s
  obtain rfl : u = t := Host.Outcome.next.inj (hu.symm.trans h)
  exact ⟨honly.regs, by rw [ring, hflags.carry, hreg, shl_ring]; rfl⟩

theorem ror_turns (d : Reg) : Turns (.ror d) d (·.rotateRight 1) := by
  intro s t h
  obtain ⟨u, hu, honly, hreg, hflags⟩ := shiftRight_exact d (s.flag flagC) s
  obtain rfl : u = t := Host.Outcome.next.inj (hu.symm.trans h)
  exact ⟨honly.regs, by rw [ring, hflags.carry, hreg, shr_ring]; rfl⟩

/-- Each repeat turns the ring once more. -/
theorem Turns.repeats {i : Instr} {d : Reg} {turn : BitVec 9 → BitVec 9} (hi : Turns i d turn) {n : Nat}
    {s t : State} (h : Repeats i n s t) : KeepsRegs [d] s t ∧ ring d t = turn^[n] (ring d s) := by
  induction n generalizing s with
  | zero =>
    obtain rfl : t = s := h
    exact ⟨fun _ _ => rfl, rfl⟩
  | succ n ih =>
    obtain ⟨u, hu, hrest⟩ := h
    obtain ⟨hkeep, hring⟩ := hi s u hu
    obtain ⟨hkeep', hring'⟩ := ih hrest
    exact ⟨fun j hj => (hkeep' j hj).trans (hkeep j hj), by rw [hring', hring, Function.iterate_succ_apply]⟩

/-- A turn of nine bits that is back after nine repeats restores the register and C. -/
theorem Turns.nine_restore {i : Instr} {d : Reg} {turn : BitVec 9 → BitVec 9} (hi : Turns i d turn)
    (hturn : ∀ x, turn^[9] x = x) {s t : State} (h : Repeats i 9 s t) :
    t.reg d = s.reg d ∧ t.flag flagC = s.flag flagC ∧ KeepsRegs [] s t := by
  obtain ⟨hkeep, hring⟩ := hi.repeats h
  obtain ⟨hreg, hcarry⟩ := ring_inj (hring.trans (hturn _))
  refine ⟨hreg, hcarry, fun j _ => ?_⟩
  by_cases hj : j = d
  · rw [hj, hreg]
  · exact hkeep j (by simpa using hj)

theorem rotateLeft_iterate_nine (x : BitVec 9) : (BitVec.rotateLeft · 1)^[9] x = x := by decide +revert

theorem rotateRight_iterate_nine (x : BitVec 9) : (BitVec.rotateRight · 1)^[9] x = x := by decide +revert

/-- Settles O55: nine turns bring a ring of nine bits back to where it was. -/
theorem nineRotatesRestore : Obligations.NineRotatesRestore := by
  rintro d s t i (rfl | rfl) h
  · exact (rol_turns d).nine_restore rotateLeft_iterate_nine h
  · exact (ror_turns d).nine_restore rotateRight_iterate_nine h

end Sys2Proof.Proofs.Shift
end

section
/-! PROOF. SREG bits and T (spec/44_bit_and_bit_test.md R275 to R294): one bit of SREG or of a register is put, and the
rest of the state is as it was. -/

namespace Sys2Proof.Proofs.BitTest

open Sys2Proof.Machine Sys2Proof.Laws

/-- SREG written with one bit put. -/
theorem writeFlags_putBit (n : BitNo) (b : Bool) (s : State) :
    ∃ t, writeFlags (putBit s.sreg n b) s = .next t ∧ OnlyRegsFlags [] [n] 1 1 s t ∧ t.flag n = b := by
  have hkeep : ∀ m, m ∉ [n] → bitOf (putBit s.sreg n b) m = bitOf s.sreg m := fun m hm => by
    rw [bitOf_putBit, if_neg (by simpa using hm)]
  obtain ⟨t, ht, honly, hsreg⟩ := Arith.writeFlags_ok s hkeep
  exact ⟨t, ht, honly, by rw [State.flag, hsreg, bitOf_putBit, if_pos rfl]⟩

/-- BSET and BCLR put the one bit, but for BSET 7, which also touches the latch. -/
theorem exec_bset_or_bclr {sb : BitNo} {on : Bool} (h : sb = flagI → on = false) (s : State) :
    exec (if on then .bset sb else .bclr sb) s = writeFlags (putBit s.sreg sb on) s := by
  cases on with
  | false => rfl
  | true =>
    have hI : sb ≠ flagI := fun e => Bool.noConfusion (h e)
    exact congrArg (fun u : State => Host.Outcome.next (u.advance 1 1)) (if_neg hI)

/-- Settles O57: each spelling's parent is BSET or BCLR of its bit. -/
theorem flagSetClear : Obligations.FlagSetClear := by
  intro s i sb on hi hI
  have hparent : canonical i = if on then .bset sb else .bclr sb := by
    fin_cases hi
    all_goals rfl
  rw [Alias.aliasesActAsParents i s, hparent, exec_bset_or_bclr hI]
  exact writeFlags_putBit sb on s

/-- BLD copies T into the one bit of its register. -/
theorem exec_bld_exact (b : Reg) (j : BitNo) (s : State) :
    ∃ u, exec (.bld b j) s = .next u ∧ OnlyRegsFlags [b] [] 1 1 s u ∧
      ∀ n, bitOf (u.reg b) n = if n = j then s.flag flagT else bitOf (s.reg b) n := by
  obtain ⟨honly, hreg⟩ := Moves.setReg_advance b (putBit (s.reg b) j (s.flag flagT)) s
  exact ⟨_, rfl, honly, fun n => by rw [hreg, bitOf_putBit]⟩

/-- Settles O59: BST leaves the registers to BLD as they were. -/
theorem bitThroughT : Obligations.BitThroughT := by
  intro a b i j s
  obtain ⟨t, ht, htonly, hT⟩ := writeFlags_putBit flagT (bitOf (s.reg a) i) s
  obtain ⟨u, hu, huonly, hubits⟩ := exec_bld_exact b j t
  have hb : t.reg b = s.reg b := htonly.regs b List.not_mem_nil
  rw [hT, hb] at hubits
  exact ⟨exec_bld_exact b j s, t, u, ht, hu, htonly, hT, huonly, hubits⟩

end Sys2Proof.Proofs.BitTest
end

section
/-! PROOF. The instruction boundary (spec/60_exceptions.md R311 to R313, R326, R328): an instruction run, an interrupt
taken, a moment asleep. -/

namespace Sys2Proof.Proofs.Boundary

open Sys2Proof.Machine Sys2Proof.Laws

/-! ### An interrupt taken -/

/-- I put to 0 is I masked out. -/
theorem putBit_flagI_false (v : Byte) : putBit v flagI false = v &&& 0x7F := rfl

/-- An interrupt entry with its stack clear of SP and of SREG. -/
theorem enterInterrupt_exact {s : State} (n : Nat) (h : StackByte s s.sp) (h' : StackByte s (s.sp - 1))
    (hsreg : s.sp ≠ 0x5F) (hsreg' : s.sp - 1 ≠ 0x5F) :
    ∃ w, Pushes s.pc s w ∧ enterInterrupt n s = .next { w with
      sreg := w.sreg &&& 0x7F
      asleep := false
      inhibit := false
      trace := .irqAck n :: w.trace
      pc := vectorAddress s.par n
      cycles := w.cycles + 4 } := by
  obtain ⟨w, hw, hp⟩ := pushPc_ok s.pc s h h'
  have hclear : entryHitsSreg s = false := by
    rw [entryHitsSreg, beq_false_of_ne hsreg, beq_false_of_ne hsreg', Bool.or_false]
  refine ⟨w, hp, ?_⟩
  simp only [enterInterrupt, hw, hclear, entrySreg, Bool.false_eq_true, if_false, putBit_flagI_false]
  rfl

/-- Settles O8: the lowest request is the pending vector, which the boundary enters. -/
theorem interruptEntry : Obligations.InterruptEntry := by
  intro s n hreset hI hready hmem hpos hlt hmin h h' hsreg hsreg'
  have hpending : s.sample.pending = some n := by
    rw [pending_eq_some, sample_par]
    exact ⟨⟨hmem, hpos, hlt⟩, hmin⟩
  have hentry := enterInterrupt_exact (s := s.sample) n
  simp only [StackByte, sample_sp, sample_par, sample_pc] at hentry
  rw [Effects.step_enters hreset hI hready hpending]
  exact hentry h h' hsreg hsreg'

/-! ### An instruction run -/

/-- Settles O7: the lines do not move the words at pc. -/
theorem stepRunsDecodedInstruction : Obligations.StepRunsDecodedInstruction := by
  intro s i rest hrun hdecode
  rw [step_runs s hrun, runInstr, fetchWords_sample, hdecode]

/-! ### A moment asleep -/

/-- Settles O11: with I off the pending vector is not looked at; with I on there is none. -/
theorem asleepWaits : Obligations.AsleepWaits := by
  intro s hreset hasleep hquiet
  simp only [step, runStep, boundary, hreset, sample_asleep, hasleep, sample_flag, Bool.false_eq_true, if_false, if_true]
  rcases hquiet with hI | hnone
  · rw [hI, if_neg Bool.false_ne_true]
  · rw [hnone]
    exact ite_self _

end Sys2Proof.Proofs.Boundary
end

section
/-! PROOF. The reset event, and the stack on SPL, SPH and SREG (spec/70_reset_and_hazards.md R330, R331, R339;
spec/93_implementation_defined.md U5): what an operation fixes although the bytes on its stack are open. -/

namespace Sys2Proof.Proofs.Hazards

open Sys2Proof.Machine Sys2Proof.Laws

/-! ### Reset -/

/-- Settles O10: the step is the reset event, whose fields do not depend on the lines sampled before it. -/
theorem resetEvent : Obligations.ResetEvent := by
  intro s h
  refine ⟨_, step_reset s h, ?_⟩
  simp

/-! ### A stack byte on SPL or SPH -/

section
variable {s : State} {a : Word}

theorem isSpByte_true (h : a = 0x5D ∨ a = 0x5E) : isSpByte a = true := by
  rcases h with rfl | rfl
  · rfl
  · rfl

theorem storeByte_spByte (v : Byte) (s : State) (h : a = 0x5D ∨ a = 0x5E) :
    ∃ w, storeByte a v s = .ok (s.setSp w) := by
  rcases h with rfl | rfl
  · exact ⟨_, by simp only [storeByte, BitVec.ofNat_eq_ofNat, region_spl]; rfl⟩
  · exact ⟨_, by simp only [storeByte, BitVec.ofNat_eq_ofNat, region_sph]; rfl⟩

theorem loadByte_spByte (s : State) (h : a = 0x5D ∨ a = 0x5E) : ∃ v, loadByte a s = .ok (v, s) := by
  rcases h with rfl | rfl
  · exact ⟨_, by simp only [loadByte, BitVec.ofNat_eq_ofNat, region_spl]; rfl⟩
  · exact ⟨_, by simp only [loadByte, BitVec.ofNat_eq_ofNat, region_sph]; rfl⟩

/-- PUSH onto half of SP: SP is open. -/
theorem exec_push_spByte (r : Reg) (h : s.sp = 0x5D ∨ s.sp = 0x5E) :
    ∃ w, exec (.push r) s = .next { s with
      sp := w, freeCount := s.freeCount + 2, pc := s.pc + 1, cycles := s.cycles + 2 } := by
  obtain ⟨w, hw⟩ := storeByte_spByte (s.reg r) s h
  refine ⟨joinBytes s.useFree.freeByte s.freeByte, ?_⟩
  simp only [exec, execPush, push8, hw, isSpByte_true h, settleSp, if_true, Except.map, settle_ok]
  rfl

/-- POP from half of SP: the byte is open, SP is not. -/
theorem exec_pop_spByte (r : Reg) (h : s.sp + 1 = 0x5D ∨ s.sp + 1 = 0x5E) :
    ∃ b, exec (.pop r) s = .next { s with
      sp := s.sp + 1, regs := s.regs.set r b, freeCount := s.freeCount + 1, pc := s.pc + 1,
      cycles := s.cycles + 2 } := by
  obtain ⟨v, hv⟩ := loadByte_spByte s h
  refine ⟨s.freeByte, ?_⟩
  simp only [exec, execPop, pop8, popByteAt, hv, isSpByte_true h, if_true]
  rfl

end

/-! ### Return addresses, wherever the map has something -/

section
variable {s w : State} {v : Word}

/-- Below 0x60 lie the registers and the I/O space: something, and not data memory. -/
theorem region_below_extended (p : Params) {a : Word} (h : a.toNat < 0x60) :
    region p a ≠ .unmapped ∧ region p a ≠ .memory := by
  obtain ⟨-, -, -, -, -, -, hmemory, hunmapped⟩ := region_inv p a
  exact ⟨fun e => absurd (hunmapped e) (by omega), fun e => absurd (hmemory e) (by omega)⟩

/-- A push of a return address completes on any two mapped bytes, open or not. -/
theorem pushPc_completes (v : Word) (h : region s.par s.sp ≠ .unmapped) (h' : region s.par (s.sp - 1) ≠ .unmapped) :
    ∃ w, pushPc v s = .ok w := by
  obtain ⟨t, ht, st⟩ := storeByte_ok s.sp (lowByte v) s h
  obtain ⟨u, hu, -⟩ := storeByte_ok (s.sp - 1) (highByte v) t (by rwa [st.par])
  exact ⟨_, by simp only [pushPc, ht, hu]; rfl⟩

theorem settleSp_reg (clash : Bool) (sp : Word) (i : Reg) (s : State) : (settleSp clash sp s).reg i = s.reg i := by
  cases clash
  · rfl
  · rfl

theorem settleSp_ramByte (clash : Bool) (sp : Word) (a : Nat) (s : State) :
    (settleSp clash sp s).ramByte a = s.ramByte a := by
  cases clash
  · rfl
  · rfl

/-- A stack above the registers leaves them alone. -/
theorem pushPc_keepsRegs (h : 32 ≤ s.sp.toNat) (h' : 32 ≤ (s.sp - 1).toNat) (hw : pushPc v s = .ok w) :
    KeepsRegs [] s w := by
  obtain ⟨t, u, st, su, rfl⟩ := pushPc_next hw
  intro i _
  have hi := i.isLt
  rw [settleSp_reg, su.regs, if_neg (by omega), st.regs, if_neg (by omega)]

/-- A stack outside data memory leaves it alone. -/
theorem pushPc_keepsMemory (h : region s.par s.sp ≠ .memory) (h' : region s.par (s.sp - 1) ≠ .memory)
    (hw : pushPc v s = .ok w) : KeepsMemory s w := by
  obtain ⟨t, u, st, su, rfl⟩ := pushPc_next hw
  intro a
  rw [settleSp_ramByte, su.memory, st.par, if_neg (fun e => h' e.1), st.memory, if_neg (fun e => h e.1)]

theorem popByteAt_completes (clash : Bool) {a : Word} (h : region s.par a ≠ .unmapped) :
    ∃ v t, popByteAt clash a s = .ok (v, t) := by
  obtain ⟨v, t, ht, -⟩ := loadByte_ok a s h
  exact ⟨_, _, by simp only [popByteAt, ht]; rfl⟩

/-- A pop of a return address completes on any two mapped bytes, open or not. -/
theorem popPc_completes (b : Bool) (h : region s.par (s.sp + 1) ≠ .unmapped)
    (h' : region s.par (s.sp + 2) ≠ .unmapped) : ∃ v t, popPc b s = .ok (v, t) := by
  obtain ⟨hi, t, ht⟩ := popByteAt_completes (isReturnClash b (s.sp + 1)) h
  have hpar : t.par = s.par := by
    obtain ⟨_, _, _, rfl⟩ := popByteAt_next ht
    rfl
  obtain ⟨lo, u, hu⟩ := popByteAt_completes (s := t) (isReturnClash b (s.sp + 2)) (by rwa [hpar])
  exact ⟨_, _, by simp only [popPc, ht, hu]; rfl⟩

end

/-! ### Calls, returns and entries there -/

section
variable {s : State}

/-- A call with its stack in the I/O space. -/
theorem callTo_ioStack (ret target : Word) (cyc : Nat) (h : 32 < s.sp.toNat) (h' : s.sp.toNat < 0x60) :
    ∃ t, callTo ret target cyc s = .next t ∧ t.pc = target ∧ KeepsRegs [] s t ∧ KeepsMemory s t := by
  have hpred : (s.sp - 1).toNat = s.sp.toNat - 1 := by bv_omega
  obtain ⟨hmap, hmem⟩ := region_below_extended s.par h'
  obtain ⟨hmap', hmem'⟩ := region_below_extended s.par (a := s.sp - 1) (by omega)
  obtain ⟨w, hw⟩ := pushPc_completes ret hmap hmap'
  have hregs : KeepsRegs [] s w := pushPc_keepsRegs h.le (by omega) hw
  have hmemory : KeepsMemory s w := pushPc_keepsMemory hmem hmem' hw
  exact ⟨w.jump target cyc, by simp only [callTo, hw, Except.map, settle_ok], rfl, hregs, hmemory⟩

variable (h : region s.par (s.sp + 1) ≠ .unmapped) (h' : region s.par (s.sp + 2) ≠ .unmapped)

include h h' in
/-- RET fixes all but pc. -/
theorem exec_ret_mapped : ∃ t, exec .ret s = .next t ∧ t.sp = s.sp + 2 ∧ KeepsRegs [] s t ∧ KeepsFlags [] s t ∧
    KeepsMemory s t := by
  obtain ⟨v, t, ht⟩ := popPc_completes false h h'
  refine ⟨t.jump v 4, by simp only [exec, execRet, ht], ?_⟩
  obtain ⟨_, _, _, rfl⟩ := popPc_next ht
  exact ⟨rfl, fun _ _ => rfl, fun _ _ => rfl, fun _ => rfl⟩

include h h' in
/-- RETI fixes all but pc: a byte popped from SREG is open, SREG itself is the old one with I set. -/
theorem exec_reti_mapped : ∃ t, exec .reti s = .next t ∧ t.sp = s.sp + 2 ∧ t.flag flagI = true ∧ t.inhibit = true ∧
    KeepsRegs [] s t ∧ KeepsFlags [flagI] s t ∧ KeepsMemory s t := by
  obtain ⟨v, t, ht⟩ := popPc_completes true h h'
  refine ⟨((t.setSreg (putBit t.sreg flagI true)).setInhibit true).jump v 4,
    by simp only [exec, execReti, returnFromInterrupt, ht], ?_⟩
  obtain ⟨_, _, _, rfl⟩ := popPc_next ht
  refine ⟨rfl, bitOf_putBit s.sreg flagI flagI true, rfl, fun _ _ => rfl, fun n hn => ?_, fun _ => rfl⟩
  exact (bitOf_putBit s.sreg flagI n true).trans (if_neg (by simpa using hn))

end

/-- An interrupt entry with its stack mapped and above the registers. -/
theorem enterInterrupt_mapped {s : State} (n : Nat) (h : 32 < s.sp.toNat) (hmap : region s.par s.sp ≠ .unmapped)
    (hmap' : region s.par (s.sp - 1) ≠ .unmapped) :
    ∃ t, enterInterrupt n s = .next t ∧ t.pc = vectorAddress s.par n ∧ t.inhibit = false ∧
      t.asleep = false ∧ t.trace.head? = some (.irqAck n) ∧ KeepsRegs [] s t := by
  obtain ⟨w, hw⟩ := pushPc_completes s.pc hmap hmap'
  obtain ⟨t, ht⟩ : ∃ t, enterInterrupt n s = .next t := ⟨_, by simp only [enterInterrupt, hw]; rfl⟩
  obtain ⟨u, _, _, hu, rfl⟩ := Effects.enterInterrupt_next ht
  have hregs : KeepsRegs [] s u := pushPc_keepsRegs h.le (by bv_omega) hu
  exact ⟨_, ht, rfl, rfl, rfl, rfl, hregs⟩

/-- Settles O53: each operation completes on mapped stack bytes; below 0x60, all are mapped and none is data memory. -/
theorem stackOnSpStaysOpen : Obligations.StackOnSpStaysOpen := by
  intro s r
  have hlow : ∀ a : Word, a.toNat < 0x60 → region s.par a ≠ .unmapped :=
    fun _ ha => (region_below_extended s.par ha).1
  refine ⟨exec_push_spByte r, exec_pop_spByte r, fun k12 k22 i target hi hsp => ?_, fun hsp => ?_,
    fun hsp h60 => ?_, fun n hsp => ?_⟩
  · have h : 32 < s.sp.toNat ∧ s.sp.toNat < 0x60 := by bv_omega
    rw [← Stack.absTarget_eq] at hi
    fin_cases hi
    · exact callTo_ioStack _ _ _ h.1 h.2
    · exact callTo_ioStack _ _ _ h.1 h.2
    · exact callTo_ioStack _ _ _ h.1 h.2
  · have h1 := hlow (s.sp + 1) (by bv_omega)
    have h2 := hlow (s.sp + 2) (by bv_omega)
    exact ⟨exec_ret_mapped h1 h2, exec_reti_mapped h1 h2⟩
  · have h2 : s.sp + 2 = 0x60 := by bv_omega
    obtain ⟨t, ht, hspt, hI, hlatch, hregs, hflags, -⟩ :=
      exec_reti_mapped (hlow (s.sp + 1) (by bv_omega)) (by rwa [h2])
    exact ⟨t, ht, hspt.trans h2, hI, hlatch, hregs, hflags⟩
  · have hmap : region s.par s.sp ≠ .unmapped := by
      rcases hsp with h | h | h | ⟨h, h60⟩
      · exact hlow _ (by bv_omega)
      · exact hlow _ (by bv_omega)
      · exact hlow _ (by bv_omega)
      · rwa [h]
    exact enterInterrupt_mapped n (by bv_omega) hmap (hlow _ (by bv_omega))

end Sys2Proof.Proofs.Hazards
end
